-- ==== Sys2Proof/Word.lean ====
section
/-! DEFINITION. The machine words of the spec: bytes of an instruction, the 32-bit general registers
(R20), the 64-bit model specific registers (`10_state.md` section 3), and the test of one bit (R8). -/

namespace Sys2Proof

/-- One byte of an instruction. -/
abbrev Byte := BitVec 8

/-- A general register, an MSR index or a CPUID leaf (R20, R100). -/
abbrev Word := BitVec 32

/-- The contents of a model specific register (R100). -/
abbrev Quad := BitVec 64

end Sys2Proof
end

