-- ==== Sys2Proof/Syntax.lean ====
section
/-! DEFINITION. The abstract syntax: one constructor of `Instr` per row of `spec/opcode_table.json`,
its operand forms, the names of the ten MSRs (R54), and the reasons the decoder rejects bytes. -/

namespace Sys2Proof

/-- The register a ModRM.rm field names, by its number. The first four are the general registers of
the spec (R20; the numbers are `93_implementation_defined.md` G23); the spec has no register for the
other four numbers (entry 14). -/
inductive RegField where
  | eax
  | ecx
  | edx
  | ebx
  | num4
  | num5
  | num6
  | num7
  deriving DecidableEq, Repr

/-- The r/m16 operand of VERW (R134): the ModRM fields mod and rm, and the SIB and displacement bytes
that follow (entry 6). -/
structure RmOperand where
  mod : BitVec 2
  rm : BitVec 3
  tail : List Byte
  deriving DecidableEq, Repr

/-- The displacement of XBEGIN (R134): four bytes, or two behind the operand-size byte 66H. -/
inductive RelOperand where
  | rel32 (d : BitVec 32)
  | rel16 (d : BitVec 16)
  deriving DecidableEq, Repr

/-- The ten model specific registers of R54. -/
inductive Msr where
  | specCtrl
  | predCmd
  | xapicDisableStatus
  | archCapabilities
  | flushCmd
  | tsxForceAbort
  | tsxCtrl
  | mcuOptCtrl
  | uarchMiscCtl
  | apicBase
  deriving DecidableEq, Repr

/-- The class column of R54. -/
inductive MsrClass where
  | readWrite
  | readOnly
  | writeOnly
  deriving DecidableEq, Repr

/-- Why the decoder rejects bytes (R131): they end before as many bytes as their first byte calls for,
or they spell no instruction of the spec. -/
inductive DecodeReject where
  | truncated
  | notOfThisSpec
  deriving DecidableEq, Repr

/-- One constructor per row of `spec/opcode_table.json`, in the table's order: the three instructions,
the selector rows, which share the bytes of their instruction and are picked by register values when
it executes (R133), and the effect-only rows (R134). -/
inductive Instr where
  -- the three instruction rows
  | cpuid
  | rdmsr
  | wrmsr
  -- selector rows of CPUID
  | cpuidLeaf7Sub0
  | cpuidLeaf7Sub2
  | cpuidLeaf7Invalid
  | cpuidLeaf7Other
  | cpuidOtherLeaf
  -- selector rows of RDMSR and WRMSR
  | rdmsrArchCapabilities
  | wrmsrArchCapabilities
  | rdmsrSpecCtrl
  | wrmsrSpecCtrl
  | rdmsrPredCmd
  | wrmsrPredCmd
  | rdmsrFlushCmd
  | wrmsrFlushCmd
  | rdmsrMcuOptCtrl
  | wrmsrMcuOptCtrl
  | rdmsrTsxCtrl
  | wrmsrTsxCtrl
  | rdmsrTsxForceAbort
  | wrmsrTsxForceAbort
  | rdmsrUarchMiscCtl
  | wrmsrUarchMiscCtl
  | rdmsrXapicDisableStatus
  | wrmsrXapicDisableStatus
  | rdmsrApicBase
  | wrmsrApicBase
  | rdmsrOutside
  | wrmsrOutside
  -- effect-only rows
  | verw (op : RmOperand)
  | xbegin (rel : RelOperand)
  | rdrand (r : RegField)
  | rdseed (r : RegField)
  | monitor
  | umonitor (r : RegField)
  | umwait (r : RegField)
  | ret
  | retImm16 (imm : BitVec 16)
  | wrmsrMcheck
  deriving DecidableEq, Repr

/-- What the decoder makes of a list of bytes: the instruction they begin with and the bytes behind
it, or the reason they begin with none. -/
inductive Decoded where
  | instr (i : Instr) (rest : List Byte)
  | rejected (why : DecodeReject)
  deriving DecidableEq, Repr

end Sys2Proof
end

