-- ==== Sys2Proof/Decode.lean ====
section
/-! DEFINITION. The decoder, total on any list of bytes, and the encoder, both from R130 and R134. The
bytes do not tell the selector rows of one instruction apart (R133): the decoder answers the
instruction, and `Machine.select` picks the row when it executes. -/

namespace Sys2Proof

/-- The ModRM byte: mod in bits 7:6, reg in bits 5:3, rm in bits 2:0 (R134). -/
def modRmByte (mod : BitVec 2) (reg rm : BitVec 3) : Byte := mod ++ reg ++ rm

/-- ModRM bits 7:6. -/
def modRmMod (b : Byte) : BitVec 2 := b.extractLsb' 6 2

/-- ModRM bits 5:3, the field R134 writes `/n`. -/
def modRmReg (b : Byte) : BitVec 3 := b.extractLsb' 3 3

/-- ModRM bits 2:0. -/
def modRmRm (b : Byte) : BitVec 3 := b.extractLsb' 0 3

/-- How many displacement bytes follow a ModRM byte with `mod` other than 3: none, one or four; `base`
is the low field of the SIB byte where there is one. PRESUMED: the family's 32-bit addressing forms
(entry 6). -/
def dispLength (mod : BitVec 2) (rm base : BitVec 3) : Nat :=
  if mod = 1 then 1
  else if mod = 2 then 4
  else if rm = 5 ∨ (rm = 4 ∧ base = 5) then 4
  else 0

/-- How many bytes follow the ModRM byte of an r/m16 operand; `tail` are those bytes, of which only
the first, the SIB byte where `rm = 4`, is looked at. PRESUMED (entry 6). -/
def modRmTailLength (mod : BitVec 2) (rm : BitVec 3) (tail : List Byte) : Nat :=
  if mod = 3 then 0
  else
    (if rm = 4 then 1 else 0) + dispLength mod rm (modRmRm (tail.headD 0))

/-- The register a ModRM.rm field names. -/
def RegField.ofNum (n : BitVec 3) : RegField :=
  if n = 0 then .eax
  else if n = 1 then .ecx
  else if n = 2 then .edx
  else if n = 3 then .ebx
  else if n = 4 then .num4
  else if n = 5 then .num5
  else if n = 6 then .num6
  else .num7

/-- The ModRM.rm field that names a register. -/
def RegField.num : RegField → BitVec 3
  | .eax => 0
  | .ecx => 1
  | .edx => 2
  | .ebx => 3
  | .num4 => 4
  | .num5 => 5
  | .num6 => 6
  | .num7 => 7

/-- The bytes of a 16-bit operand, least significant first (R105, `93` G12). -/
def bytesOf16 (v : BitVec 16) : List Byte := [v.extractLsb' 0 8, v.extractLsb' 8 8]

/-- The bytes of a 32-bit operand, least significant first (R105, `93` G12). -/
def bytesOf32 (v : BitVec 32) : List Byte :=
  [v.extractLsb' 0 8, v.extractLsb' 8 8, v.extractLsb' 16 8, v.extractLsb' 24 8]

/-- A 16-bit operand from its bytes, the first the least significant. -/
def word16 (b0 b1 : Byte) : BitVec 16 := b1 ++ b0

/-- A 32-bit operand from its bytes, the first the least significant. -/
def word32 (b0 b1 b2 b3 : Byte) : BitVec 32 := b3 ++ b2 ++ b1 ++ b0

/-- What follows 0F 00: VERW is `/5` with an r/m16 operand (R134). -/
def decodeVerw : List Byte → Decoded
  | [] => .rejected .truncated
  | m :: rest =>
    if modRmReg m = 5 then
      let n := modRmTailLength (modRmMod m) (modRmRm m) rest
      if rest.length < n then .rejected .truncated
      else .instr (.verw ⟨modRmMod m, modRmRm m, rest.take n⟩) (rest.drop n)
    else .rejected .notOfThisSpec

/-- What follows 0F C7: RDRAND is `/6` and RDSEED `/7`, both with mod = 11 (R134). -/
def decodeRandom : List Byte → Decoded
  | [] => .rejected .truncated
  | m :: rest =>
    if modRmMod m = 3 ∧ modRmReg m = 6 then .instr (.rdrand (.ofNum (modRmRm m))) rest
    else if modRmMod m = 3 ∧ modRmReg m = 7 then .instr (.rdseed (.ofNum (modRmRm m))) rest
    else .rejected .notOfThisSpec

/-- What follows 0F 01: MONITOR is C8 (R134). -/
def decodeMonitor : List Byte → Decoded
  | [] => .rejected .truncated
  | m :: rest => if m = 0xC8 then .instr .monitor rest else .rejected .notOfThisSpec

/-- What follows the escape byte 0F (R130, R134). -/
def decodeEscape : List Byte → Decoded
  | [] => .rejected .truncated
  | b :: rest =>
    if b = 0xA2 then .instr .cpuid rest
    else if b = 0x32 then .instr .rdmsr rest
    else if b = 0x30 then .instr .wrmsr rest
    else if b = 0x00 then decodeVerw rest
    else if b = 0x01 then decodeMonitor rest
    else if b = 0xC7 then decodeRandom rest
    else .rejected .notOfThisSpec

/-- What follows F3 or F2: both UMONITOR and UMWAIT are 0F AE `/6` with mod = 11 (R134); `row` is the
one the first byte picks. -/
def decodeWait (row : RegField → Instr) : List Byte → Decoded
  | b0 :: b1 :: m :: rest =>
    if b0 = 0x0F ∧ b1 = 0xAE ∧ modRmMod m = 3 ∧ modRmReg m = 6 then
      .instr (row (.ofNum (modRmRm m))) rest
    else .rejected .notOfThisSpec
  | _ => .rejected .truncated

/-- What follows C7: XBEGIN is F8 and a four-byte displacement (R134). -/
def decodeXbegin32 : List Byte → Decoded
  | b :: b0 :: b1 :: b2 :: b3 :: rest =>
    if b = 0xF8 then .instr (.xbegin (.rel32 (word32 b0 b1 b2 b3))) rest
    else .rejected .notOfThisSpec
  | _ => .rejected .truncated

/-- What follows 66: the only form admitted is XBEGIN with a two-byte displacement (R134, R131). -/
def decodeXbegin16 : List Byte → Decoded
  | b0 :: b1 :: d0 :: d1 :: rest =>
    if b0 = 0xC7 ∧ b1 = 0xF8 then .instr (.xbegin (.rel16 (word16 d0 d1))) rest
    else .rejected .notOfThisSpec
  | _ => .rejected .truncated

/-- What follows C2: the 16-bit operand of RET (R134). -/
def decodeRetImm16 : List Byte → Decoded
  | b0 :: b1 :: rest => .instr (.retImm16 (word16 b0 b1)) rest
  | _ => .rejected .truncated

/-- The instruction a list of bytes begins with (R130, R134); every other sequence is rejected by
name (R131). -/
def decode : List Byte → Decoded
  | [] => .rejected .truncated
  | b :: rest =>
    if b = 0x0F then decodeEscape rest
    else if b = 0xC3 then .instr .ret rest
    else if b = 0xC2 then decodeRetImm16 rest
    else if b = 0xC7 then decodeXbegin32 rest
    else if b = 0x66 then decodeXbegin16 rest
    else if b = 0xF3 then decodeWait .umonitor rest
    else if b = 0xF2 then decodeWait .umwait rest
    else .rejected .notOfThisSpec

/-- The instruction whose bytes a row has (R133): a selector row has those of CPUID, RDMSR or WRMSR;
every other row is its own. -/
def Instr.base : Instr → Instr
  | .cpuid => .cpuid
  | .rdmsr => .rdmsr
  | .wrmsr => .wrmsr
  | .cpuidLeaf7Sub0 => .cpuid
  | .cpuidLeaf7Sub2 => .cpuid
  | .cpuidLeaf7Invalid => .cpuid
  | .cpuidLeaf7Other => .cpuid
  | .cpuidOtherLeaf => .cpuid
  | .rdmsrArchCapabilities => .rdmsr
  | .wrmsrArchCapabilities => .wrmsr
  | .rdmsrSpecCtrl => .rdmsr
  | .wrmsrSpecCtrl => .wrmsr
  | .rdmsrPredCmd => .rdmsr
  | .wrmsrPredCmd => .wrmsr
  | .rdmsrFlushCmd => .rdmsr
  | .wrmsrFlushCmd => .wrmsr
  | .rdmsrMcuOptCtrl => .rdmsr
  | .wrmsrMcuOptCtrl => .wrmsr
  | .rdmsrTsxCtrl => .rdmsr
  | .wrmsrTsxCtrl => .wrmsr
  | .rdmsrTsxForceAbort => .rdmsr
  | .wrmsrTsxForceAbort => .wrmsr
  | .rdmsrUarchMiscCtl => .rdmsr
  | .wrmsrUarchMiscCtl => .wrmsr
  | .rdmsrXapicDisableStatus => .rdmsr
  | .wrmsrXapicDisableStatus => .wrmsr
  | .rdmsrApicBase => .rdmsr
  | .wrmsrApicBase => .wrmsr
  | .rdmsrOutside => .rdmsr
  | .wrmsrOutside => .wrmsr
  | .verw op => .verw op
  | .xbegin rel => .xbegin rel
  | .rdrand r => .rdrand r
  | .rdseed r => .rdseed r
  | .monitor => .monitor
  | .umonitor r => .umonitor r
  | .umwait r => .umwait r
  | .ret => .ret
  | .retImm16 imm => .retImm16 imm
  | .wrmsrMcheck => .wrmsr

/-- The bytes of XBEGIN with its displacement (R134). -/
def encodeXbegin : RelOperand → List Byte
  | .rel32 d => [0xC7, 0xF8] ++ bytesOf32 d
  | .rel16 d => [0x66, 0xC7, 0xF8] ++ bytesOf16 d

/-- The bytes of an instruction that has bytes of its own (R130, R134); a selector row goes through
`Instr.base` first. -/
def encodeBase : Instr → List Byte
  | .cpuid => [0x0F, 0xA2]
  | .rdmsr => [0x0F, 0x32]
  | .wrmsr => [0x0F, 0x30]
  | .verw op => [0x0F, 0x00, modRmByte op.mod 5 op.rm] ++ op.tail
  | .xbegin rel => encodeXbegin rel
  | .rdrand r => [0x0F, 0xC7, modRmByte 3 6 r.num]
  | .rdseed r => [0x0F, 0xC7, modRmByte 3 7 r.num]
  | .monitor => [0x0F, 0x01, 0xC8]
  | .umonitor r => [0xF3, 0x0F, 0xAE, modRmByte 3 6 r.num]
  | .umwait r => [0xF2, 0x0F, 0xAE, modRmByte 3 6 r.num]
  | .ret => [0xC3]
  | .retImm16 imm => [0xC2] ++ bytesOf16 imm
  | .cpuidLeaf7Sub0 | .cpuidLeaf7Sub2 | .cpuidLeaf7Invalid | .cpuidLeaf7Other | .cpuidOtherLeaf => []
  | .rdmsrArchCapabilities | .rdmsrSpecCtrl | .rdmsrPredCmd | .rdmsrFlushCmd | .rdmsrMcuOptCtrl => []
  | .rdmsrTsxCtrl | .rdmsrTsxForceAbort | .rdmsrUarchMiscCtl | .rdmsrXapicDisableStatus => []
  | .rdmsrApicBase | .rdmsrOutside => []
  | .wrmsrArchCapabilities | .wrmsrSpecCtrl | .wrmsrPredCmd | .wrmsrFlushCmd | .wrmsrMcuOptCtrl => []
  | .wrmsrTsxCtrl | .wrmsrTsxForceAbort | .wrmsrUarchMiscCtl | .wrmsrXapicDisableStatus => []
  | .wrmsrApicBase | .wrmsrOutside | .wrmsrMcheck => []

/-- The bytes of an instruction: those of the instruction whose bytes its row has. -/
def encode (i : Instr) : List Byte := encodeBase i.base

/-- The longest instruction the decoder knows: VERW with a SIB byte and four displacement bytes. -/
def maxInstrBytes : Nat := 8

/-- The first `n` bytes of a number, least significant first. -/
def bytesFrom (n w : Nat) : List Byte := (List.range n).map fun k => BitVec.ofNat 8 (w >>> (8 * k))

/-- Whether the decoder reads an instruction from some bytes. -/
def decodes (bs : List Byte) : Bool :=
  match decode bs with
  | .instr _ _ => true
  | .rejected _ => false

/-- The bytes of an instruction whose table bits are `w`, up to the longest instruction, every bit
above `nbits` 0. The first byte is bits 7:0. The table prints a row's bytes with the first one
leftmost ("0FA2"), so a number copied from it has its first byte highest: where the first layout
spells no instruction, the `nbits` bits are laid out from the highest byte down (entry 8). -/
def tableBytes (nbits w : Nat) : List Byte :=
  let m := w % 2 ^ nbits
  let n := (nbits + 7) / 8
  let low := bytesFrom maxInstrBytes m
  if decodes low then low
  else (bytesFrom n m).reverse ++ List.replicate (maxInstrBytes - n) 0

/-- The instruction the decoder reads from a row's bits. -/
def decodeTableWord (nbits w : Nat) : Option Instr :=
  match decode (tableBytes nbits w) with
  | .instr i _ => some i
  | .rejected _ => none

end Sys2Proof
end

