-- ==== Sys2Proof/Config.lean ====
section
/-! DEFINITION. What an implementation fixes (`cfg`, R6) as plain data, the three configurations the
spec's vectors use (`95_test_vectors.md` section 2), and the free values: constants with no body, of
which nothing can be proved. -/

namespace Sys2Proof

/-- `cfg.ILLEGAL_SET_POLICY` (R199): what a write does that sets a bit which "can be set only if" a
failing condition. -/
inductive IllegalSetPolicy where
  | gp
  | ignore
  deriving DecidableEq, Repr

/-- The four values CPUID leaves in EAX, EBX, ECX and EDX (R100). -/
structure CpuidOut where
  eax : Word
  ebx : Word
  ecx : Word
  edx : Word
  deriving DecidableEq, Repr, Inhabited

/-- The configuration record of R6. `cpuidOther` names which function `cfg.CPUID_OTHER` is: the
function itself is `Config.cpuidOther` at that name (entry 12). -/
structure Cfg where
  maxSubleaf7 : Nat
  c70Eax : Word
  c70Ebx : Word
  c70Ecx : Word
  c70Edx : Word
  c72Eax : Word
  c72Ebx : Word
  c72Ecx : Word
  c72Edx : Word
  cpuidOther : Nat
  skuHle : Bool
  skuRtm : Bool
  archCap : Quad
  mcuRtmBits : Bool
  gdsLockRw : Bool
  gdsLockAtMcuLoad : Bool
  l1dFlushClearsFb : Bool
  sdvSetRequiresEdx11 : Bool
  illegalSetPolicy : IllegalSetPolicy
  xapicLockOnExtd : Bool
  hyperthreading : Bool
  threadsPerCore : Nat
  cores : Nat
  resetTsxCtrl : BitVec 2
  /-- `cfg.RESET_MCU_UNSTATED[1]` (R423). -/
  resetRtmAllow : Bool
  /-- `cfg.RESET_MCU_UNSTATED[2]` (R423). -/
  resetRtmLocked : Bool
  /-- `cfg.RESET_MCU_UNSTATED[3]` (R423). -/
  resetFbClearDis : Bool
  resetTfaBit0 : Bool
  resetXapicLocked : Bool
  deriving DecidableEq, Repr

/-- The processor "with everything this spec describes" (`95_test_vectors.md` section 2). -/
def Cfg.a : Cfg where
  maxSubleaf7 := 2
  c70Eax := 2
  c70Ebx := 0
  c70Ecx := 0
  c70Edx := 0xBC002E00
  c72Eax := 0
  c72Ebx := 0
  c72Ecx := 0
  c72Edx := 0xBF
  cpuidOther := 0
  skuHle := true
  skuRtm := true
  archCap := 0x622E1082
  mcuRtmBits := true
  gdsLockRw := false
  gdsLockAtMcuLoad := false
  l1dFlushClearsFb := false
  sdvSetRequiresEdx11 := true
  illegalSetPolicy := .gp
  xapicLockOnExtd := true
  hyperthreading := true
  threadsPerCore := 2
  cores := 1
  resetTsxCtrl := 0
  resetRtmAllow := true
  resetRtmLocked := false
  resetFbClearDis := false
  resetTfaBit0 := false
  resetXapicLocked := false

/-- The old processor with IBRS, IBPB and STIBP only (`95_test_vectors.md` section 2, "policy
defaults"): one logical processor. That section leaves CORES and THREADS_PER_CORE at 0, which R22 makes
a package with no logical processor; the rule is right (entry 1). -/
def Cfg.b : Cfg where
  maxSubleaf7 := 0
  c70Eax := 0
  c70Ebx := 0
  c70Ecx := 0
  c70Edx := 0x0C000000
  c72Eax := 0
  c72Ebx := 0
  c72Ecx := 0
  c72Edx := 0
  cpuidOther := 0
  skuHle := false
  skuRtm := false
  archCap := 0
  mcuRtmBits := false
  gdsLockRw := false
  gdsLockAtMcuLoad := false
  l1dFlushClearsFb := false
  sdvSetRequiresEdx11 := true
  illegalSetPolicy := .gp
  xapicLockOnExtd := false
  hyperthreading := false
  threadsPerCore := 1
  cores := 1
  resetTsxCtrl := 0
  resetRtmAllow := false
  resetRtmLocked := false
  resetFbClearDis := false
  resetTfaBit0 := false
  resetXapicLocked := false

/-- `Cfg.a` with the original definition of IA32_TSX_FORCE_ABORT: EDX[11] clear, EDX[13] set
(`95_test_vectors.md` section 2). -/
def Cfg.c : Cfg := { Cfg.a with c70Edx := 0xBC002600 }

/-- `cfg.CPUID_OTHER(leaf, sub)` (R164, R167): the first argument names the configuration's function.
Uninterpreted (entry 12). -/
opaque Config.cpuidOther : Nat → Word → Word → CpuidOut

/-- EAX after an abort whose only cause is a sibling in an enclave (R375, "any value"): the draw
count and the logical processor's number. Uninterpreted (entry 18). -/
opaque Config.freeAbortEax : Nat → Nat → Word

/-- The value RDRAND or RDSEED returns (R377, not in the source). Uninterpreted (entry 14). -/
opaque Config.freeRandom : Nat → Word

/-- Where a near RET continues (R380: the target is not changed by any bit of the spec, and the spec
has no stack to take it from). Uninterpreted (entry 15). -/
opaque Config.freeReturnTarget : Nat → Nat

/-- Whether a UMWAIT entered its optimized state (R378, "the model must allow both").
Uninterpreted (entry 19). -/
opaque Config.freeWaitEntered : Nat → Bool

/-- Whether MONITOR or UMONITOR with MON_UMON_MITG reaches a nearby logical processor (R379,
"sometimes"; `93` row 24, "any value"): the draw count and that logical processor's number.
Uninterpreted (entry 38). -/
opaque Config.freeNearbyFlush : Nat → Nat → Bool

/-- Where an XBEGIN whose fallback address would lie below 0 continues: `ip` has no fixed width and
wrap-around is not described (R15, R23). Arguments: the address after the instruction and the
displacement. Uninterpreted (entry 16). -/
opaque Config.freeFallbackBelowZero : Nat → Int → Nat

end Sys2Proof
end

