-- ==== Sys2Proof/Machine/State.lean ====
section
/-! DEFINITION. Everything the spec gives the machine (`10_state.md`), as plain data: the logical
processors, the program, the inputs of the environment; the reasons a step stops; the state after
reset. -/

namespace Sys2Proof.Machine

/-- Why an RTM transaction aborted (R373). -/
inductive AbortCause where
  | rtmDisable
  | rtmAllow0
  | forceAbort
  | siblingEnclave
  deriving DecidableEq, Repr

/-- The records of the command event history (R60). -/
inductive Event where
  | ibpb
  | l1dFlush (fbCleared : Bool)
  | mdClear (fbClear rfdsClear : Bool)
  | enclaveBufferOverwrite
  | rtmAbort (cause : AbortCause)
  | mcuLoad
  deriving DecidableEq, Repr

/-- The MODEL's own record of the named effects of the effect-only instructions, which change no value
an instruction can read (R377 to R380; entry 13). -/
inductive Effect where
  /-- RDRAND (`seed = false`) or RDSEED ran; whether with the SRBDS mitigation, where the spec says
  (R293: only on a processor that enumerates RNGDS_MITG_DIS). -/
  | random (seed : Bool) (mitigated : Option Bool)
  /-- UMONITOR ran: whether it was allowed to set up an address monitor (R378). -/
  | umonitor (maySetUp : Bool)
  /-- MONITOR or UMONITOR flushed previously monitored addresses of the logical processor (R379). -/
  | monitorFlush
  /-- MONITOR or UMONITOR of the logical processor numbered `source`, nearby, flushed this one's
  previously monitored addresses (R118, R379; entry 38). -/
  | nearbyFlush (source : Nat)
  /-- UMWAIT ran: whether it entered the optimized state (R378, free). -/
  | umwait (entered : Bool)
  /-- RET ran: whether alternative predictors may be used with an empty RSB (RSBA), whether the RRSBA
  behaviour may occur, whether post-barrier RSB predictions are excluded (R380). -/
  | ret (rsba rrsba pbrsbNo : Bool)
  deriving DecidableEq, Repr

/-- The start-state values `Reset` takes (R420, R421, R65): what the spec leaves to the model's start
state, kept beside each logical processor. -/
structure StartValues where
  eax : Word
  ebx : Word
  ecx : Word
  edx : Word
  cpl : Fin 4
  ip : Nat
  apicExtd : Bool
  apicOther : Quad
  deriving DecidableEq, Repr

/-- One logical processor (`10_state.md`): its registers (R20, R21, R23), its execution context (R26),
its event history (R60), its configuration (R22) and its own instance of every MSR (R22). -/
structure LogicalProcessor where
  /-- The model's number for it in inputs (entry 10). -/
  id : Nat
  /-- The core it belongs to (R22). -/
  core : Nat
  /-- The module it belongs to, "a grouping of nearby logical processors" (R13, R404; entry 38). -/
  coreModule : Nat
  /-- The package has it: it is among the THREADS_PER_CORE logical processors of the CORES cores (R22).
  One that is not takes no part in any rule until a reset or a load makes it one (entry 27). -/
  present : Bool
  cfg : Cfg
  eax : Word
  ebx : Word
  ecx : Word
  edx : Word
  cpl : Fin 4
  ip : Nat
  inEnclave : Bool
  inRtm : Bool
  /-- Fallback address of the transaction in progress (R373, R374; entry 20). -/
  rtmFallback : Nat
  events : List Event
  /-- The model's own (entry 13). -/
  effects : List Effect
  specCtrl : Quad
  mcuOptCtrl : Quad
  tsxCtrl : Quad
  /-- "The stored state is three bits" (R49). -/
  tsxForceAbort : BitVec 3
  uarchMiscCtl : Quad
  /-- IA32_XAPIC_DISABLE_STATUS[0], LEGACY_XAPIC_DISABLED (R52), as stored: `legacyXapicDisabled` is how it
  reads (entry 41). -/
  xapicDisabled : Bool
  /-- GDS_MITG_LOCK was 1 when a microcode load took it out of the enumeration: it reads 0 meanwhile (R426)
  and is 1 again where a load enumerates it again, since only a reset clears it (R299, R305 e, R427;
  entry 22). -/
  gdsLockHeld : Bool
  /-- IA32_APIC_BASE.EXTD (R53). -/
  apicExtd : Bool
  /-- The bits of IA32_APIC_BASE other than EXTD, from the start state (R359; entry 3). -/
  apicOther : Quad
  start : StartValues
  deriving DecidableEq, Repr

/-- The configuration each logical processor gets from a reset or a microcode load: `dflt`, except
for those listed by number (R22, R420, R426; entry 23). -/
structure CfgAssignment where
  dflt : Cfg
  perLp : List (Nat × Cfg)
  deriving DecidableEq, Repr

/-- What the environment can do between two instructions (R14, R395, R405, R428; entry 10). A number
names a logical processor. -/
inductive EnvEvent where
  /-- The named logical processor executes the following instructions (R405). -/
  | schedule (lp : Nat)
  /-- Reset of the package (R420). -/
  | reset (cfg0 : CfgAssignment)
  /-- INIT# (R424). -/
  | init (lp : Nat)
  /-- SIPI# (R424). -/
  | sipi (lp : Nat)
  /-- Microcode update load (R426). -/
  | mcuLoad (cfg' : CfgAssignment)
  /-- The BIOS successfully completed MCHECK (R362). -/
  | mcheckComplete (lp : Nat)
  /-- The logical processor enters an SGX enclave (R375, R376). -/
  | enclaveEnter (lp : Nat)
  /-- The logical processor leaves its SGX enclave (R376). -/
  | enclaveExit (lp : Nat)
  /-- An RTM transaction with this fallback address is in progress from now on (R26, R374). -/
  | rtmBegin (lp : Nat) (fallback : Nat)
  /-- The transaction is no longer in progress (R26). -/
  | rtmEnd (lp : Nat)
  /-- The platform action that locks RTM_ALLOW at zero (R295; entry 25). -/
  | rtmLock (lp : Nat)
  /-- Instructions outside the spec have run on the logical processor and left these values in its
  registers and `ip` (R4; `95_test_vectors.md` section 4; entry 37). -/
  | software (lp : Nat) (eax ebx ecx edx : Word) (ip : Nat)
  deriving DecidableEq, Repr

/-- One entry of the queue the step reads (entry 10): the executing logical processor runs one
instruction, or an event of the environment happens. -/
inductive Input where
  | execute
  | event (e : EnvEvent)
  deriving DecidableEq, Repr

/-- Bytes by address; an address that is not listed has no byte (entry 9). -/
abbrev Memory := List Host.Cell

/-- The machine (R14): the logical processor that executes the next instruction, the others in
ascending order of their numbers (the ones the package does not have among them), the program, the
inputs to come, and the count of free values drawn. -/
structure State where
  cur : LogicalProcessor
  others : List LogicalProcessor
  /-- The program given to the model (R116). -/
  code : Memory
  pending : List Input
  /-- The model's own: how many free values have been drawn (entry 18). -/
  draws : Nat
  deriving DecidableEq, Repr

/-- The reasons a step faults. -/
inductive Fault where
  /-- `Fault(GP, 0)` (R390): raised by RDMSR and WRMSR for the causes of R391. It carries the error code
  and the unchanged state, whose `ip` is the address of the faulting instruction (R392). Safe: nothing is
  written, and nothing can be proved of what the logical processor does after it (R398; entry 11). -/
  | gp (errorCode : Nat) (state : State)
  deriving DecidableEq, Repr

/-- The reasons a step is refused: the model has no rule (R410). Each is safe: nothing can be proved of
what the hardware does. -/
inductive Refusal where
  /-- Raised by `exec` for an instruction that has no meaning yet. -/
  | notModelled (mnemonic : String)
  /-- Raised by the step: the bytes at `ip` spell no instruction of the spec (R131, R394). -/
  | undecoded (why : DecodeReject)
  /-- Raised by RDMSR and WRMSR of an index outside the spec (R194). -/
  | msrOutsideSpec (idx : Word)
  /-- Raised by WRMSR to IA32_APIC_BASE where a field other than EXTD would change (R359). -/
  | apicBaseOtherFields
  /-- Raised by XBEGIN where nothing forces an abort: starting a transaction is not described (R372). -/
  | xbeginNotForced
  /-- Raised by a selector row in a state where its selector does not hold (R133; entry 7). -/
  | rowNotSelected
  /-- Raised by a reset or a microcode load whose configuration breaks R33 or R41, or whose CORES and
  THREADS_PER_CORE the package cannot have (R22, R426; entry 23). -/
  | illFormedCfg
  /-- Raised by an input that names no logical processor of the machine (entry 10). -/
  | noSuchLogicalProcessor (lp : Nat)
  deriving DecidableEq, Repr

/-- The start-state values of the two logical processors after reset: the registers at 0, CPL 0
(entry 2), IA32_APIC_BASE as the family resets it (entry 3). -/
def startValues (apicOther : Quad) : StartValues where
  eax := 0
  ebx := 0
  ecx := 0
  edx := 0
  cpl := 0
  ip := 0
  apicExtd := false
  apicOther := apicOther

/-- A logical processor after `Reset(cfgA)`, value by value (R420, R65; `95_test_vectors.md`, end of
section 2). -/
def lpAfterReset (id : Nat) (apicOther : Quad) : LogicalProcessor where
  id := id
  core := 0
  coreModule := 0
  present := true
  cfg := Cfg.a
  eax := 0
  ebx := 0
  ecx := 0
  edx := 0
  cpl := 0
  ip := 0
  inEnclave := false
  inRtm := false
  rtmFallback := 0
  events := []
  effects := []
  specCtrl := 0
  mcuOptCtrl := 0x42
  tsxCtrl := 0
  tsxForceAbort := 0
  uarchMiscCtl := 0
  xapicDisabled := false
  gdsLockHeld := false
  apicExtd := false
  apicOther := apicOther
  start := startValues apicOther

/-- The machine right after reset (R420, R65), configured as `cfgA` (entry 1): two logical processors
of one core, no program, no input to come. -/
def State.reset : State where
  cur := lpAfterReset 0 0xFEE00900
  others := [lpAfterReset 1 0xFEE00800]
  code := []
  pending := []
  draws := 0

end Sys2Proof.Machine
end

