-- ==== Sys2Proof/Machine/Operands.lean ====
section
/-! DEFINITION. The operand forms: single bits of a register (R8), the register pair EDX:EAX of RDMSR
and WRMSR (R132), the four outputs of CPUID (R160), the destination of RDRAND and RDSEED, the
displacement of XBEGIN and the length of VERW (R134). -/

namespace Sys2Proof.Machine

/-- `v` with bit `n` set to `b` (R8). -/
def setBit {w : Nat} (v : BitVec w) (n : Nat) (b : Bool) : BitVec w :=
  if b then v ||| (1#w <<< n) else v &&& ~~~(1#w <<< n)

/-- The 64-bit operand of WRMSR: EDX in bits 63:32, EAX in bits 31:0 (R105, R132). -/
def edxEax (lp : LogicalProcessor) : Quad := lp.edx ++ lp.eax

/-- RDMSR's results: bits 31:0 to EAX, bits 63:32 to EDX (R190). -/
def putEdxEax (v : Quad) (lp : LogicalProcessor) : LogicalProcessor :=
  { lp with eax := v.extractLsb' 0 32, edx := v.extractLsb' 32 32 }

/-- CPUID's results, all four written (R160). -/
def putCpuid (o : CpuidOut) (lp : LogicalProcessor) : LogicalProcessor :=
  { lp with eax := o.eax, ebx := o.ebx, ecx := o.ecx, edx := o.edx }

/-- A write of the register a ModRM.rm field names. The spec's machine has the first four registers
only (R20): a write of another one changes nothing it has (entry 14). -/
def putReg (r : RegField) (v : Word) (lp : LogicalProcessor) : LogicalProcessor :=
  match r with
  | .eax => { lp with eax := v }
  | .ecx => { lp with ecx := v }
  | .edx => { lp with edx := v }
  | .ebx => { lp with ebx := v }
  | .num4 => lp
  | .num5 => lp
  | .num6 => lp
  | .num7 => lp

/-- The length of VERW with this operand: 0F 00, ModRM, and the bytes behind it (R134). -/
def verwLength (op : RmOperand) : Nat := 3 + op.tail.length

/-- The length of XBEGIN with this displacement (R134). -/
def xbeginLength : RelOperand → Nat
  | .rel32 _ => 6
  | .rel16 _ => 5

/-- The displacement of XBEGIN as a signed number. PRESUMED, `93` G22 (entry 16). -/
def relOffset : RelOperand → Int
  | .rel32 d => d.toInt
  | .rel16 d => d.toInt

/-- The fallback address of an XBEGIN at `ip`: relative to the instruction behind it (`93` G22). Below
0 it is a free value (entry 16). -/
def fallbackAddress (ip : Nat) (rel : RelOperand) : Nat :=
  let target : Int := (ip + xbeginLength rel : Nat) + relOffset rel
  if 0 ≤ target then target.toNat
  else Config.freeFallbackBelowZero (ip + xbeginLength rel) (relOffset rel)

end Sys2Proof.Machine
end

