-- ==== Sys2Proof/Machine/Flags.lean ====
section
/-! DEFINITION. The spec's machine has no status flag (R24): what its rules compute one bit at a time
are the feature flags of CPUID leaf 07H and of IA32_ARCH_CAPABILITIES (R30 to R41), which MSR and
which field exists (R42 to R54), the constraints on a configuration (R33, R41), and the mode
predicates of the control bits (files 43 to 47). -/

namespace Sys2Proof.Machine

/-! ### Enumeration -/

/-- Bit `n` of C70.EDX where it is static: every bit but 11 (R30). -/
def c70EdxBit (c : Cfg) (n : Nat) : Bool := c.c70Edx.getLsbD n

/-- `ARCH_CAP[n]`, which counts as 0 where IA32_ARCH_CAPABILITIES does not exist (R33 item 2, R40). -/
def archCapBit (c : Cfg) (n : Nat) : Bool := c70EdxBit c 29 && c.archCap.getLsbD n

/-- `C72.EDX[n]`, 0 where subleaf 2 is not valid (R31, R33 item 1, R34). -/
def c72EdxBit (c : Cfg) (n : Nat) : Bool := decide (2 ≤ c.maxSubleaf7) && c.c72Edx.getLsbD n

/-- `MsrExists` (R54; R42 to R46, R48, R49, R51, R52). -/
def msrExists (m : Msr) (c : Cfg) : Bool :=
  match m with
  | .specCtrl =>
    c70EdxBit c 26 || c70EdxBit c 27 || c70EdxBit c 31 || c72EdxBit c 0 || c72EdxBit c 1 ||
      c72EdxBit c 2 || c72EdxBit c 3 || c72EdxBit c 4
  | .predCmd => c70EdxBit c 26
  | .xapicDisableStatus => archCapBit c 21
  | .archCapabilities => c70EdxBit c 29
  | .flushCmd => c70EdxBit c 28
  | .tsxForceAbort => c70EdxBit c 13
  | .tsxCtrl => archCapBit c 7
  | .mcuOptCtrl =>
    c70EdxBit c 9 || archCapBit c 18 || archCapBit c 25 || archCapBit c 29 || archCapBit c 30 ||
      c.mcuRtmBits
  | .uarchMiscCtl => archCapBit c 12
  | .apicBase => true

/-- A mask with bit `n` as given. -/
def maskBit (n : Nat) (b : Bool) : Quad := if b then 1#64 <<< n else 0

/-- The implemented bits of IA32_MCU_OPT_CTRL, R203's `W(123H)` (R45, R47). -/
def mcuImplemented (c : Cfg) : Quad :=
  maskBit 0 (c70EdxBit c 9) ||| maskBit 1 c.mcuRtmBits ||| maskBit 2 c.mcuRtmBits |||
    maskBit 3 (archCapBit c 18) ||| maskBit 4 (archCapBit c 25) ||| maskBit 5 (archCapBit c 25) |||
    maskBit 6 (archCapBit c 29) ||| maskBit 7 (archCapBit c 30)

/-- The enumerated bits of IA32_SPEC_CTRL, R203's `W(48H)` (R42). -/
def specCtrlImplemented (c : Cfg) : Quad :=
  maskBit 0 (c70EdxBit c 26) ||| maskBit 1 (c70EdxBit c 27) ||| maskBit 2 (c70EdxBit c 31) |||
    maskBit 3 (c72EdxBit c 1) ||| maskBit 4 (c72EdxBit c 1) ||| maskBit 5 (c72EdxBit c 2) |||
    maskBit 6 (c72EdxBit c 2) ||| maskBit 7 (c72EdxBit c 0) ||| maskBit 8 (c72EdxBit c 3) |||
    maskBit 10 (c72EdxBit c 4)

/-! ### The constraints on a configuration -/

/-- A well-formed configuration: EDX[11] only with EDX[13] (R33 item 5); never both RFDS_NO and
RFDS_CLEAR (R41); no fill-buffer clearing by L1D_FLUSH where FB_CLEAR = 1 (R273); the lock at load
only without hyperthreading (R427); `C70_EAX = MAX_SUBLEAF7` (R34); RTM_ALLOW resets to 0 where
RTM_LOCKED resets to 1 (R423); more than one thread a core exactly with hyperthreading (R22; that the
package has the cores and threads is `State.topologyOk`). -/
def cfgWf (c : Cfg) : Bool :=
  (!c70EdxBit c 11 || c70EdxBit c 13) &&
  !(c.archCap.getLsbD 27 && c.archCap.getLsbD 28) &&
  !(archCapBit c 17 && c.l1dFlushClearsFb) &&
  !(c.gdsLockAtMcuLoad && c.hyperthreading) &&
  decide (c.c70Eax.toNat = c.maxSubleaf7) &&
  !(c.resetRtmLocked && c.resetRtmAllow) &&
  (decide (1 < c.threadsPerCore) == c.hyperthreading)

/-! ### CPUID leaf 07H values that depend on MSR state -/

/-- What CPUID reports now in EDX[11] where IA32_TSX_FORCE_ABORT exists: `edx11` of R333. -/
def tfaEdx11 (lp : LogicalProcessor) : Bool :=
  c70EdxBit lp.cfg 11 && !lp.tsxForceAbort.getLsbD 2

/-- `C70.EDX` (R30): bit 11 reads 0 while SDV_ENABLE_RTM = 1. -/
def c70Edx (lp : LogicalProcessor) : Word :=
  setBit lp.cfg.c70Edx 11
    (c70EdxBit lp.cfg 11 && !(msrExists .tsxForceAbort lp.cfg && lp.tsxForceAbort.getLsbD 2))

/-- `TsxCpuidClear` (R32): either TSX_CPUID_CLEAR bit clears (conflict C10). -/
def tsxCpuidClear (lp : LogicalProcessor) : Bool :=
  (msrExists .tsxCtrl lp.cfg && lp.tsxCtrl.getLsbD 1) ||
    (msrExists .tsxForceAbort lp.cfg && lp.tsxForceAbort.getLsbD 1)

/-- `C70.EBX` (R32): bits 4 (HLE) and 11 (RTM) are computed. -/
def c70Ebx (lp : LogicalProcessor) : Word :=
  setBit (setBit lp.cfg.c70Ebx 4 (lp.cfg.skuHle && !tsxCpuidClear lp)) 11
    (lp.cfg.skuRtm && !tsxCpuidClear lp)

/-- `C72.EDX` as CPUID returns it where subleaf 2 is valid (R31). -/
def c72Edx (lp : LogicalProcessor) : Word := lp.cfg.c72Edx

/-! ### IA32_TSX_FORCE_ABORT -/

/-- `TfaUpdated` (R50). -/
def tfaUpdated (lp : LogicalProcessor) : Bool :=
  c70EdxBit lp.cfg 13 && (c70EdxBit lp.cfg 11 || lp.tsxForceAbort.getLsbD 2)

/-- Bit 0 as RDMSR returns it: "Reads as 1, unless bit 2 is set" (R332, R338, R343). -/
def tfaReadBit0 (lp : LogicalProcessor) : Bool :=
  if tfaEdx11 lp then true else lp.tsxForceAbort.getLsbD 0

/-- `TfaReadValue` (R332). -/
def tfaReadValue (lp : LogicalProcessor) : Quad :=
  (setBit lp.tsxForceAbort 0 (tfaReadBit0 lp)).zeroExtend 64

/-- `ForceAbortRtm` (R335): the logical processor is in FORCE_ABORT_RTM mode. -/
def forceAbortRtm (lp : LogicalProcessor) : Bool :=
  msrExists .tsxForceAbort lp.cfg && (tfaReadValue lp).getLsbD 0

/-- `Pmc3Usable` (R341): counter 3 reports correct values; otherwise nothing is promised. -/
def pmc3Usable (lp : LogicalProcessor) : Bool :=
  forceAbortRtm lp && !lp.tsxForceAbort.getLsbD 2

/-! ### IA32_TSX_CTRL and RTM -/

/-- `RtmDisable` (R322). -/
def rtmDisable (lp : LogicalProcessor) : Bool :=
  msrExists .tsxCtrl lp.cfg && lp.tsxCtrl.getLsbD 0

/-- RTM_ALLOW is implemented and 0 (R294, R372; R47). -/
def rtmNotAllowed (lp : LogicalProcessor) : Bool :=
  lp.cfg.mcuRtmBits && !lp.mcuOptCtrl.getLsbD 1

/-- `TaaSgxBehaviour` (R227). -/
def taaSgxBehaviour (c : Cfg) : Bool := archCapBit c 7 && !archCapBit c 8

/-! ### IA32_SPEC_CTRL -/

/-- Bit `n` of IA32_SPEC_CTRL where the MSR exists: the form of `IbrsOn` and its like. -/
def specCtrlOn (n : Nat) (lp : LogicalProcessor) : Bool :=
  msrExists .specCtrl lp.cfg && lp.specCtrl.getLsbD n

/-- `IbrsOn` (R252). -/
def ibrsOn (lp : LogicalProcessor) : Bool := specCtrlOn 0 lp

/-- `StibpOn` (R253). -/
def stibpOn (lp : LogicalProcessor) : Bool := specCtrlOn 1 lp

/-- `SsbdOn` (R254). -/
def ssbdOn (lp : LogicalProcessor) : Bool := specCtrlOn 2 lp

/-- The _U bit at CPL 3, the _S bit at CPL 0, 1 and 2 (R401). -/
def specCtrlByCpl (userBit supervisorBit : Nat) (lp : LogicalProcessor) : Bool :=
  if lp.cpl = 3 then lp.specCtrl.getLsbD userBit else lp.specCtrl.getLsbD supervisorBit

/-- `IpredDis` (R255). -/
def ipredDis (lp : LogicalProcessor) : Bool := specCtrlByCpl 3 4 lp

/-- `RrsbaActive` (R257): an upper bound on when the behaviour can occur. -/
def rrsbaActive (lp : LogicalProcessor) : Bool :=
  archCapBit lp.cfg 19 && !specCtrlByCpl 5 6 lp

/-- `PsfdOn` (R258). -/
def psfdOn (lp : LogicalProcessor) : Bool := specCtrlOn 7 lp

/-- `DdpdOn` (R259). -/
def ddpdOn (lp : LogicalProcessor) : Bool := specCtrlOn 8 lp

/-- `BhiDisS` (R261). -/
def bhiDisS (lp : LogicalProcessor) : Bool := specCtrlOn 10 lp

/-! ### IA32_FLUSH_CMD, VERW, IA32_MCU_OPT_CTRL, IA32_UARCH_MISC_CTL -/

/-- `L1dFlushClearsFb` (R273): forced to 0 where FB_CLEAR = 1, whatever FB_CLEAR_DIS says. -/
def l1dFlushClearsFb (c : Cfg) : Bool := c.l1dFlushClearsFb && !archCapBit c 17

/-- `fb` of R370: VERW overwrites the fill buffers. -/
def verwClearsFb (lp : LogicalProcessor) : Bool :=
  archCapBit lp.cfg 17 && !(archCapBit lp.cfg 18 && lp.mcuOptCtrl.getLsbD 3)

/-- `rfds` of R370. -/
def verwClearsRfds (lp : LogicalProcessor) : Bool := archCapBit lp.cfg 28

/-- `SrbdsMitigated` (R293). -/
def srbdsMitigated (lp : LogicalProcessor) : Bool := lp.inEnclave || !lp.mcuOptCtrl.getLsbD 0

/-- `IgnUmonitor` (R301). -/
def ignUmonitor (lp : LogicalProcessor) : Bool :=
  archCapBit lp.cfg 29 && lp.mcuOptCtrl.getLsbD 6

/-- `MonUmonMitg` (R304). -/
def monUmonMitg (lp : LogicalProcessor) : Bool :=
  archCapBit lp.cfg 30 && lp.mcuOptCtrl.getLsbD 7

/-- `DoitmOn` (R352). -/
def doitmOn (lp : LogicalProcessor) : Bool :=
  msrExists .uarchMiscCtl lp.cfg && lp.uarchMiscCtl.getLsbD 0

/-- LEGACY_XAPIC_DISABLED as it reads: a field that is not enumerated reads 0 whatever is stored (R420, R52;
entry 41). -/
def legacyXapicDisabled (lp : LogicalProcessor) : Bool :=
  msrExists .xapicDisableStatus lp.cfg && lp.xapicDisabled

/-! ### Predicates over the package -/

/-- Every logical processor the machine holds, whether the package has it or not (entry 27). -/
def State.threads (s : State) : List LogicalProcessor := s.cur :: s.others

/-- Every logical processor of the package (R22). -/
def State.lps (s : State) : List LogicalProcessor := s.threads.filter fun lp => lp.present

/-- The logical processors of core `c` (R22). -/
def State.coreLps (s : State) (c : Nat) : List LogicalProcessor :=
  s.lps.filter fun lp => lp.core == c

/-- `siblings(lp)` (R22): the other logical processors of its core. -/
def State.siblings (s : State) (lp : LogicalProcessor) : List LogicalProcessor :=
  (s.coreLps lp.core).filter fun t => t.id != lp.id

/-- How many cores these logical processors belong to: each core is counted at the lowest number on it. -/
def coreCount (l : List LogicalProcessor) : Nat :=
  l.countP fun t => l.all fun u => u.core != t.core || decide (t.id ≤ u.id)

/-- R22: the package has `cfg.CORES` cores, each core has `cfg.THREADS_PER_CORE` logical processors, as
the configuration of each of them says; the executing one is among them. -/
def State.topologyOk (s : State) : Bool :=
  s.cur.present && s.lps.all fun lp =>
    decide (lp.cfg.cores = coreCount s.lps) &&
      decide (lp.cfg.threadsPerCore = (s.coreLps lp.core).length)

/-- Nearby logical processors of `lp`: "on a sibling hyperthread or in the same module" (R379, R404). -/
def nearby (lp t : LogicalProcessor) : Bool :=
  t.present && t.id != lp.id && (t.core == lp.core || t.coreModule == lp.coreModule)

/-- MONITOR and UMONITOR of `lp` may flush the monitored addresses of `t`, and wake it (R118, R379,
R404): an upper bound, "sometimes". -/
def monitorFlushMayReach (lp t : LogicalProcessor) : Bool := monUmonMitg lp && nearby lp t

/-- `GdsMitigationDisabled` (R298): only with GDS_MITG_DIS = 1 on every logical processor of the core. -/
def gdsMitigationDisabled (s : State) (c : Nat) : Bool :=
  (s.coreLps c).all fun t => t.mcuOptCtrl.getLsbD 4

/-- STIBP's protection covers the core (R253). -/
def stibpProtectsCore (s : State) (c : Nat) : Bool := (s.coreLps c).any stibpOn

/-- A mode of IA32_SPEC_CTRL may be in force on `lp`: its own setting or a sibling's (R262). -/
def specCtrlMayBeInForce (n : Nat) (s : State) (lp : LogicalProcessor) : Bool :=
  specCtrlOn n lp || (s.siblings lp).any (specCtrlOn n)

/-- `SiblingInEnclaveBlocksTsx` (R375). -/
def siblingInEnclaveBlocksTsx (s : State) (lp : LogicalProcessor) : Bool :=
  taaSgxBehaviour lp.cfg && lp.cfg.hyperthreading && (s.siblings lp).any fun t => t.inEnclave

end Sys2Proof.Machine
end

