-- ==== Sys2Proof/Machine/Ops.lean ====
section
/-! DEFINITION. The named operations the meanings are written over: completing, faulting and refusing
(R390, R410); the event history (R60); the RTM abort (R373); the logical processors of the package;
the program's bytes (R116). -/

namespace Sys2Proof.Machine

/-- What a step answers. -/
abbrev Result := Host.Outcome State Fault Refusal

/-! ### The three outcomes (R410) -/

/-- The state with the executing logical processor changed by `f`. -/
def State.onCur (s : State) (f : LogicalProcessor → LogicalProcessor) : State :=
  { s with cur := f s.cur }

/-- The instruction completes with this change of the executing logical processor. -/
def complete (s : State) (f : LogicalProcessor → LogicalProcessor) : Result := .next (s.onCur f)

/-- `raise #GP(0)` (R390): the instruction ends here and writes nothing. The spec gives no entry into a
handler (R398): the outcome is the fault, with the unchanged state, whose `ip` is the faulting
instruction's address (R392). DESIGN CHOICE (entry 11): the fault ends the run of the machine, though R398
ends that of one logical processor only; the others can go on from the state the fault carries. -/
def raiseGP (s : State) : Result := .fault (.gp 0 s)

/-- The model has no rule (R410). -/
def refuse (r : Refusal) : Result := .refused r

/-- The meaning of a selector row: it is the instruction's only where its selector holds (R133;
entry 7). -/
def whenSelected (selected : Bool) (o : Result) : Result :=
  if selected then o else refuse .rowNotSelected

/-! ### One logical processor -/

/-- `ip <- ip + n` (R12, R23): no wrap-around (R15). -/
def LogicalProcessor.advance (n : Nat) (lp : LogicalProcessor) : LogicalProcessor :=
  { lp with ip := lp.ip + n }

/-- `emit e` (R60): the history is append-only. -/
def LogicalProcessor.emit (e : Event) (lp : LogicalProcessor) : LogicalProcessor :=
  { lp with events := lp.events ++ [e] }

/-- Append to the model's own record of effects (entry 13). -/
def LogicalProcessor.note (e : Effect) (lp : LogicalProcessor) : LogicalProcessor :=
  { lp with effects := lp.effects ++ [e] }

/-- `RtmAbort(cause)` (R373), with the value EAX gets: 0, or a free value where the only cause is a
sibling in an enclave (R375). -/
def LogicalProcessor.rtmAbort (cause : AbortCause) (code : Word) (fallback : Nat)
    (lp : LogicalProcessor) : LogicalProcessor :=
  { lp with
    eax := code
    inRtm := false
    events := lp.events ++ [.rtmAbort cause]
    ip := fallback }

/-! ### The logical processors of the package -/

/-- The state with every logical processor changed by `f`. -/
def State.onAll (s : State) (f : LogicalProcessor → LogicalProcessor) : State :=
  { s with cur := f s.cur, others := s.others.map f }

/-- `f` on the logical processor numbered `n`, the identity on the others. -/
def onNumber (n : Nat) (f : LogicalProcessor → LogicalProcessor) (lp : LogicalProcessor) :
    LogicalProcessor :=
  if lp.id = n then f lp else lp

/-- The state with the logical processor numbered `n` changed by `f`. -/
def State.onLp (s : State) (n : Nat) (f : LogicalProcessor → LogicalProcessor) : State :=
  s.onAll (onNumber n f)

/-- Whether the package has a logical processor numbered `n`. -/
def State.hasLp (s : State) (n : Nat) : Bool := s.lps.any fun lp => lp.id == n

/-- A logical processor put in its place among others in ascending order. -/
def insertLp (lp : LogicalProcessor) : List LogicalProcessor → List LogicalProcessor
  | [] => [lp]
  | t :: ts => if lp.id ≤ t.id then lp :: t :: ts else t :: insertLp lp ts

/-- One free value has been drawn (entry 18). -/
def State.drawn (s : State) : State := { s with draws := s.draws + 1 }

/-! ### The program's bytes -/

/-- The byte at an address, where there is one. -/
def Memory.read : Memory → Nat → Option Byte
  | [], _ => none
  | (a, b) :: m, k => if k = a then some b else Memory.read m k

/-- The program with a byte placed at an address, in canonical form. -/
def Memory.write : Memory → Nat → Byte → Memory
  | [], k, v => [(k, v)]
  | (a, b) :: m, k, v =>
    if k < a then (k, v) :: (a, b) :: m
    else if k = a then (k, v) :: m
    else (a, b) :: Memory.write m k v

/-- Bytes placed at consecutive addresses. -/
def Memory.writeAll : Memory → Nat → List Byte → Memory
  | m, _, [] => m
  | m, k, v :: vs => Memory.writeAll (Memory.write m k v) (k + 1) vs

/-- Every address listed lies above `k`. -/
def Memory.above (k : Nat) (m : Memory) : Bool := m.all fun c => decide (k < c.1)

/-- The canonical form: addresses strictly rising. An unlisted address has no byte, so no entry can
equal what an unlisted address reads as. -/
def Memory.wf : Memory → Bool
  | [] => true
  | (a, _) :: m => Memory.above a m && Memory.wf m

/-- The bytes of the program from an address on, up to `n` and up to the first address without one. -/
def Memory.bytesAt (m : Memory) (k : Nat) : Nat → List Byte
  | 0 => []
  | n + 1 =>
    match Memory.read m k with
    | none => []
    | some b => b :: Memory.bytesAt m (k + 1) n

end Sys2Proof.Machine
end

