-- ==== Sys2Proof/Machine/Cpuid.lean ====
section
/-! DEFINITION. CPUID (`40_cpuid.md`): the instruction (R160) and its five selector rows (R161 to R164,
R167). It raises nothing and runs at every CPL (R160, R394). -/

namespace Sys2Proof.Machine

/-- The outputs of leaf 07H, subleaf 0 (R161). -/
def cpuidLeaf7Sub0Out (lp : LogicalProcessor) : CpuidOut :=
  ⟨lp.cfg.c70Eax, c70Ebx lp, lp.cfg.c70Ecx, c70Edx lp⟩

/-- The outputs of leaf 07H, subleaf 2, where it is valid (R162, R166). -/
def cpuidLeaf7Sub2Out (lp : LogicalProcessor) : CpuidOut :=
  ⟨lp.cfg.c72Eax, lp.cfg.c72Ebx, lp.cfg.c72Ecx, c72Edx lp⟩

/-- `cfg.CPUID_OTHER` (R164, R167; entry 12). -/
def cpuidOtherOut (leaf sub : Word) (lp : LogicalProcessor) : CpuidOut :=
  Config.cpuidOther lp.cfg.cpuidOther leaf sub

/-- A subleaf of leaf 07H is valid: not greater than `cfg.MAX_SUBLEAF7`, unsigned (R34, R163). -/
def subleafValid (lp : LogicalProcessor) : Bool := decide (lp.ecx.toNat ≤ lp.cfg.maxSubleaf7)

/-- The outputs of CPUID for the leaf in EAX and the subleaf in ECX (R160). -/
def cpuidOut (lp : LogicalProcessor) : CpuidOut :=
  if lp.eax = 7 then
    if subleafValid lp = false then ⟨0, 0, 0, 0⟩
    else if lp.ecx = 0 then cpuidLeaf7Sub0Out lp
    else if lp.ecx = 2 then cpuidLeaf7Sub2Out lp
    else cpuidOtherOut 7 lp.ecx lp
  else cpuidOtherOut lp.eax lp.ecx lp

/-- The four registers receive the outputs and `ip` advances (R160). -/
def cpuidComplete (s : State) (out : LogicalProcessor → CpuidOut) : Result :=
  complete s fun lp => (putCpuid (out lp) lp).advance 2

/-- CPUID (R160). -/
def execCpuid (s : State) : Result := cpuidComplete s cpuidOut

/-- CPUID with EAX = 07H, ECX = 0 (R161). -/
def execCpuidLeaf7Sub0 (s : State) : Result :=
  whenSelected (s.cur.eax == 7 && s.cur.ecx == 0) (cpuidComplete s cpuidLeaf7Sub0Out)

/-- CPUID with EAX = 07H, ECX = 2, where subleaf 2 is valid (R162). -/
def execCpuidLeaf7Sub2 (s : State) : Result :=
  whenSelected (s.cur.eax == 7 && s.cur.ecx == 2 && subleafValid s.cur)
    (cpuidComplete s cpuidLeaf7Sub2Out)

/-- CPUID with EAX = 07H and an invalid subleaf: all four outputs 0 (R163). -/
def execCpuidLeaf7Invalid (s : State) : Result :=
  whenSelected (s.cur.eax == 7 && !subleafValid s.cur) (cpuidComplete s fun _ => ⟨0, 0, 0, 0⟩)

/-- CPUID with EAX = 07H and a valid subleaf other than 0 and 2 (R164). -/
def execCpuidLeaf7Other (s : State) : Result :=
  whenSelected (s.cur.eax == 7 && s.cur.ecx != 0 && s.cur.ecx != 2 && subleafValid s.cur)
    (cpuidComplete s fun lp => cpuidOtherOut 7 lp.ecx lp)

/-- CPUID with any other leaf (R167). -/
def execCpuidOtherLeaf (s : State) : Result :=
  whenSelected (s.cur.eax != 7) (cpuidComplete s fun lp => cpuidOtherOut lp.eax lp.ecx lp)

end Sys2Proof.Machine
end

