-- ==== Sys2Proof/Machine/EffectOnly.lean ====
section
/-! DEFINITION. The effect-only instructions (`47_affected_instructions.md`): VERW, XBEGIN, RDRAND,
RDSEED, MONITOR, UMONITOR, UMWAIT and RET. Each completes with the one effect the spec gives it; what
the spec gives no value for is a free value, and results it places outside its machine (flags, memory,
other registers) are left out (entries 13 to 19). -/

namespace Sys2Proof.Machine

/-! ### VERW (R370, R371) -/

/-- `md or fb or rfds` of R370: whether VERW emits a record at all. -/
def verwClears (lp : LogicalProcessor) : Bool :=
  c70EdxBit lp.cfg 10 || verwClearsFb lp || verwClearsRfds lp

/-- The record VERW appends, if any (R370). -/
def verwEffect (lp : LogicalProcessor) : LogicalProcessor :=
  if verwClears lp then lp.emit (.mdClear (verwClearsFb lp) (verwClearsRfds lp)) else lp

/-- VERW r/m16 (R370). Its operand and its flag are not in the spec (entry 19). -/
def execVerw (op : RmOperand) (s : State) : Result :=
  complete s fun lp => (verwEffect lp).advance (verwLength op)

/-! ### XBEGIN and the RTM abort (R372 to R375) -/

/-- The first cause that forces an XBEGIN to abort, in the order R372 writes them. What
XBEGIN does where `cfg.SKU_RTM = 0` is not in the source (corner case e): DESIGN CHOICE, SKU_RTM is not
consulted, so a forced XBEGIN aborts there as elsewhere. Where several causes hold the record may carry any of
them (corner case g): DESIGN CHOICE, the first in the order written (entry 40 for both). -/
def xbeginCause (s : State) : Option AbortCause :=
  if rtmDisable s.cur then some .rtmDisable
  else if rtmNotAllowed s.cur then some .rtmAllow0
  else if forceAbortRtm s.cur then some .forceAbort
  else if siblingInEnclaveBlocksTsx s s.cur then some .siblingEnclave
  else none

/-- EAX after an abort (R373): 0 for the three MSR causes; for a sibling in an enclave, which is the
first cause only when it is the sole one, a free value (R372 corner case g, R375). -/
def abortCode (cause : AbortCause) (draws id : Nat) : Word :=
  match cause with
  | .siblingEnclave => Config.freeAbortEax draws id
  | .rtmDisable => 0
  | .rtmAllow0 => 0
  | .forceAbort => 0

/-- The draw count after an abort: one more where EAX was free. -/
def State.drawnFor (s : State) (cause : AbortCause) : State :=
  match cause with
  | .siblingEnclave => s.drawn
  | .rtmDisable => s
  | .rtmAllow0 => s
  | .forceAbort => s

/-- XBEGIN (R372): where something forces it, it aborts and continues at its fallback address (R373);
where nothing does, the spec has no rule for it (`95` V-E8; entry 17). -/
def execXbegin (rel : RelOperand) (s : State) : Result :=
  match xbeginCause s with
  | some cause =>
    complete (s.drawnFor cause) fun lp =>
      lp.rtmAbort cause (abortCode cause s.draws lp.id) (fallbackAddress lp.ip rel)
  | none => refuse .xbeginNotForced

/-- A transaction in progress aborts while the logical processor is in FORCE_ABORT_RTM mode (R374). -/
def rtmMustAbort (lp : LogicalProcessor) : Bool := lp.inRtm && forceAbortRtm lp

/-- The abort of R374 where it is due: EAX 0, at the transaction's fallback address. It is taken before
the next instruction of the logical processor, and before an input that stands for one or would lose it
(entry 21). -/
def LogicalProcessor.takeDueAbort (lp : LogicalProcessor) : LogicalProcessor :=
  if rtmMustAbort lp then lp.rtmAbort .forceAbort 0 lp.rtmFallback else lp

/-- The abort of R374, a step of its own at the executing logical processor's turn (entry 21). -/
def abortInProgress (s : State) : Result := complete s LogicalProcessor.takeDueAbort

/-! ### RDRAND and RDSEED (R377) -/

/-- Whether the instruction ran with the SRBDS mitigation, where the spec says (R293). -/
def srbdsNote (lp : LogicalProcessor) : Option Bool :=
  if c70EdxBit lp.cfg 9 then some (srbdsMitigated lp) else none

/-- RDRAND or RDSEED: a free value to the destination (entry 14), and the note of R377. -/
def randomTo (seed : Bool) (r : RegField) (s : State) : Result :=
  complete s.drawn fun lp =>
    ((putReg r (Config.freeRandom s.draws) lp).note (.random seed (srbdsNote lp))).advance 3

/-- RDRAND (R377). -/
def execRdrand (r : RegField) (s : State) : Result := randomTo false r s

/-- RDSEED (R377). -/
def execRdseed (r : RegField) (s : State) : Result := randomTo true r s

/-! ### MONITOR, UMONITOR, UMWAIT (R378, R379) -/

/-- A flush by logical processor `lp` as it shows on `t`: "sometimes" (R379) it reaches one nearby,
which of them is free (entry 38). -/
def flushReaching (draws : Nat) (lp t : LogicalProcessor) : LogicalProcessor :=
  if monitorFlushMayReach lp t && Config.freeNearbyFlush draws t.id then
    t.note (.nearbyFlush lp.id)
  else t

/-- With MON_UMON_MITG, previously monitored addresses of the executing logical processor are flushed
and, where the free pick says so, those of nearby ones (R118, R379). The model has no sleep state to wake
(R409). -/
def monitorsFlushed (s : State) : State :=
  if monUmonMitg s.cur then
    { s.drawn with
      cur := s.cur.note .monitorFlush
      others := s.others.map (flushReaching s.draws s.cur) }
  else s

/-- MONITOR (R379). -/
def execMonitor (s : State) : Result := complete (monitorsFlushed s) (LogicalProcessor.advance 3)

/-- UMONITOR (R378, R379): it completes; with IGN_UMONITOR it sets up no address monitor. The register
that holds the address has no effect on the state. -/
def execUmonitor (_r : RegField) (s : State) : Result :=
  complete (monitorsFlushed s) fun lp => (lp.note (.umonitor (!ignUmonitor lp))).advance 4

/-- UMWAIT (R378): whether it enters its optimized state is free, and the wait ends at once: the model
has no sleep or wait state (R409; entry 19). -/
def execUmwait (_r : RegField) (s : State) : Result :=
  complete s.drawn fun lp => (lp.note (.umwait (Config.freeWaitEntered s.draws))).advance 4

/-! ### RET (R380) -/

/-- RET: prediction only (R380). The target, which the spec does not give, is free (entry 15). -/
def retTo (s : State) : Result :=
  complete s.drawn fun lp =>
    { lp.note (.ret (archCapBit lp.cfg 2) (rrsbaActive lp) (archCapBit lp.cfg 24)) with
      ip := Config.freeReturnTarget s.draws }

/-- RET (R380). -/
def execRet (s : State) : Result := retTo s

/-- RET imm16 (R380). The operand counts stack bytes, and the spec's machine has no stack (R103). -/
def execRetImm16 (_imm : BitVec 16) (s : State) : Result := retTo s

end Sys2Proof.Machine
end

