-- ==== Sys2Proof/Machine/MsrAccess.lean ====
section
/-! DEFINITION. The MSR space (R100, R101): the index map of R54, `MsrRead` (R201), `MsrWrite` (R202)
with its reserved masks (R203), legality (R199) and ignored bits (R198), and the check order RDMSR and
WRMSR share (R190, R191, R200). -/

namespace Sys2Proof.Machine

/-! ### The index map (R54) -/

/-- The index placed in ECX (R101; 122H is 290, conflict C2; 1BH is `93` G9). -/
def msrIndex : Msr → Word
  | .specCtrl => 0x48
  | .predCmd => 0x49
  | .xapicDisableStatus => 0xBD
  | .archCapabilities => 0x10A
  | .flushCmd => 0x10B
  | .tsxForceAbort => 0x10F
  | .tsxCtrl => 0x122
  | .mcuOptCtrl => 0x123
  | .uarchMiscCtl => 0x1B01
  | .apicBase => 0x1B

/-- The MSR an index names, if it is one of `Defined` (R194). -/
def msrOfIndex (idx : Word) : Option Msr :=
  if idx = 0x1B then some .apicBase
  else if idx = 0x48 then some .specCtrl
  else if idx = 0x49 then some .predCmd
  else if idx = 0xBD then some .xapicDisableStatus
  else if idx = 0x10A then some .archCapabilities
  else if idx = 0x10B then some .flushCmd
  else if idx = 0x10F then some .tsxForceAbort
  else if idx = 0x122 then some .tsxCtrl
  else if idx = 0x123 then some .mcuOptCtrl
  else if idx = 0x1B01 then some .uarchMiscCtl
  else none

/-- The class column of R54. -/
def msrClass : Msr → MsrClass
  | .specCtrl => .readWrite
  | .predCmd => .writeOnly
  | .xapicDisableStatus => .readOnly
  | .archCapabilities => .readOnly
  | .flushCmd => .writeOnly
  | .tsxForceAbort => .readWrite
  | .tsxCtrl => .readWrite
  | .mcuOptCtrl => .readWrite
  | .uarchMiscCtl => .readWrite
  | .apicBase => .readWrite

/-! ### Reading (R201) -/

/-- IA32_APIC_BASE: EXTD in bit 10 over the bits taken from the start state (R53, R359; entry 28). -/
def apicBaseValue (lp : LogicalProcessor) : Quad := setBit lp.apicOther 10 lp.apicExtd

/-- `MsrRead` (R201; R220, R250, R290, R320, R332, R350, R358, R359). The command registers hold no
state (R43, R44) and are never read (R195). -/
def msrRead (m : Msr) (lp : LogicalProcessor) : Quad :=
  match m with
  | .specCtrl => lp.specCtrl
  | .predCmd => 0
  | .xapicDisableStatus => maskBit 0 lp.xapicDisabled
  | .archCapabilities => lp.cfg.archCap
  | .flushCmd => 0
  | .tsxForceAbort => tfaReadValue lp
  | .tsxCtrl => lp.tsxCtrl &&& 3
  | .mcuOptCtrl => lp.mcuOptCtrl &&& mcuImplemented lp.cfg
  | .uarchMiscCtl => lp.uarchMiscCtl &&& 1
  | .apicBase => apicBaseValue lp

/-! ### Which values a write may carry -/

/-- `W(idx)` (R203): the positions that are not reserved. For IA32_APIC_BASE every position: legality
and the refusal of R53 take the mask's place. -/
def msrNotReserved (m : Msr) (c : Cfg) : Quad :=
  match m with
  | .specCtrl => specCtrlImplemented c
  | .predCmd => 1
  | .xapicDisableStatus => 0
  | .archCapabilities => 0
  | .flushCmd => 1
  | .tsxForceAbort => 7
  | .tsxCtrl => 3
  | .mcuOptCtrl => mcuImplemented c
  | .uarchMiscCtl => 1
  | .apicBase => ~~~0

/-- `ReservedMask(idx)` (R203). -/
def msrReserved (m : Msr) (c : Cfg) : Quad := ~~~msrNotReserved m c

/-- `set1 and not ok1` of R333: bit 1 would go from 0 to 1 and its condition fails (R336). -/
def tfaIllegalBit1 (v : Quad) (lp : LogicalProcessor) : Bool :=
  (v.getLsbD 1 && !lp.tsxForceAbort.getLsbD 1) && !(tfaEdx11 lp || lp.tsxForceAbort.getLsbD 2)

/-- `set2 and not ok2` of R333: bit 2 would go from 0 to 1 and its condition fails (R337). -/
def tfaIllegalBit2 (v : Quad) (lp : LogicalProcessor) : Bool :=
  (v.getLsbD 2 && !lp.tsxForceAbort.getLsbD 2) &&
    !(if lp.cfg.sdvSetRequiresEdx11 then tfaEdx11 lp else !tfaEdx11 lp)

/-- The write would clear EXTD while LEGACY_XAPIC_DISABLED = 1 (R360). -/
def apicClearsLockedExtd (v : Quad) (lp : LogicalProcessor) : Bool :=
  legacyXapicDisabled lp && !v.getLsbD 10

/-- `Legal(idx, v)` (R199). -/
def msrLegal (m : Msr) (v : Quad) (lp : LogicalProcessor) : Bool :=
  match m with
  | .tsxForceAbort => !tfaIllegalBit1 v lp && !tfaIllegalBit2 v lp
  | .apicBase => !apicClearsLockedExtd v lp
  | .specCtrl | .predCmd | .xapicDisableStatus | .archCapabilities | .flushCmd => true
  | .tsxCtrl | .mcuOptCtrl | .uarchMiscCtl => true

/-- Whether an illegal write is clamped rather than a fault: the policy `ignore`, but never for
IA32_APIC_BASE, whose fault the source states (R199, R360). -/
def msrClamps (m : Msr) (c : Cfg) : Bool :=
  match m with
  | .tsxForceAbort => decide (c.illegalSetPolicy = .ignore)
  | .apicBase => false
  | .specCtrl | .predCmd | .xapicDisableStatus | .archCapabilities | .flushCmd => false
  | .tsxCtrl | .mcuOptCtrl | .uarchMiscCtl => false

/-- `Clamp(idx, v)` (R199, R333): the offending bits cleared. -/
def msrClamp (m : Msr) (v : Quad) (lp : LogicalProcessor) : Quad :=
  match m with
  | .tsxForceAbort =>
    setBit (setBit v 1 (v.getLsbD 1 && !tfaIllegalBit1 v lp)) 2
      (v.getLsbD 2 && !tfaIllegalBit2 v lp)
  | .specCtrl | .predCmd | .xapicDisableStatus | .archCapabilities | .flushCmd => v
  | .tsxCtrl | .mcuOptCtrl | .uarchMiscCtl | .apicBase => v

/-- A write of IA32_APIC_BASE that changes a field other than EXTD is outside the spec (R359). -/
def msrOutside (m : Msr) (v : Quad) (lp : LogicalProcessor) : Bool :=
  match m with
  | .apicBase => decide (setBit v 10 false ≠ setBit lp.apicOther 10 false)
  | .specCtrl | .predCmd | .xapicDisableStatus | .archCapabilities | .flushCmd => false
  | .tsxForceAbort | .tsxCtrl | .mcuOptCtrl | .uarchMiscCtl => false

/-! ### Writing (R202) -/

/-- IA32_TSX_FORCE_ABORT after a write (R333): bit 0 is ignored where it reads as constant 1. -/
def tfaWritten (v : Quad) (lp : LogicalProcessor) : BitVec 3 :=
  setBit
    (setBit
      (setBit lp.tsxForceAbort 0
        (if tfaEdx11 lp then lp.tsxForceAbort.getLsbD 0 else v.getLsbD 0))
      1 (v.getLsbD 1))
    2 (v.getLsbD 2)

/-- GDS_MITG_LOCK after a write: set by software only where `cfg.GDS_LOCK_RW`, never cleared (R300). -/
def gdsLockWritten (v : Quad) (lp : LogicalProcessor) : Bool :=
  lp.mcuOptCtrl.getLsbD 5 || (lp.cfg.gdsLockRw && v.getLsbD 5)

/-- RTM_ALLOW and RTM_LOCKED after a write (R291, R294, R295). -/
def mcuWriteRtm (v : Quad) (lp : LogicalProcessor) (r : Quad) : Quad :=
  if lp.cfg.mcuRtmBits && !lp.mcuOptCtrl.getLsbD 2 then setBit r 1 (v.getLsbD 1) else r

/-- GDS_MITG_DIS and GDS_MITG_LOCK after a write (R291, R297, R299). -/
def mcuWriteGds (v : Quad) (lp : LogicalProcessor) (r : Quad) : Quad :=
  if archCapBit lp.cfg 25 then
    setBit (setBit r 5 (gdsLockWritten v lp)) 4 (!gdsLockWritten v lp && v.getLsbD 4)
  else r

/-- A plain field after a write, where it is enumerated. -/
def mcuWriteField (n : Nat) (enumerated : Bool) (v r : Quad) : Quad :=
  if enumerated then setBit r n (v.getLsbD n) else r

/-- IA32_MCU_OPT_CTRL after a write (R291). -/
def mcuWritten (v : Quad) (lp : LogicalProcessor) : Quad :=
  mcuWriteField 7 (archCapBit lp.cfg 30) v
    (mcuWriteField 6 (archCapBit lp.cfg 29) v
      (mcuWriteGds v lp
        (mcuWriteField 3 (archCapBit lp.cfg 18) v
          (mcuWriteRtm v lp
            (mcuWriteField 0 (c70EdxBit lp.cfg 9) v lp.mcuOptCtrl)))))

/-- LEGACY_XAPIC_DISABLED after a write of IA32_APIC_BASE: setting EXTD may lock it (R359, R361). -/
def xapicLockWritten (v : Quad) (lp : LogicalProcessor) : Bool :=
  lp.xapicDisabled ||
    (!lp.apicExtd && v.getLsbD 10 && msrExists .xapicDisableStatus lp.cfg && lp.cfg.xapicLockOnExtd)

/-- `MsrWrite` (R202; R251, R265, R270, R291, R321, R333, R351, R359). The read-only registers are never
written (R195). -/
def msrWrite (m : Msr) (v : Quad) (lp : LogicalProcessor) : LogicalProcessor :=
  match m with
  | .specCtrl => { lp with specCtrl := v }
  | .predCmd => if v.getLsbD 0 then lp.emit .ibpb else lp
  | .xapicDisableStatus => lp
  | .archCapabilities => lp
  | .flushCmd => if v.getLsbD 0 then lp.emit (.l1dFlush (l1dFlushClearsFb lp.cfg)) else lp
  | .tsxForceAbort => { lp with tsxForceAbort := tfaWritten v lp }
  | .tsxCtrl => { lp with tsxCtrl := v }
  | .mcuOptCtrl => { lp with mcuOptCtrl := mcuWritten v lp }
  | .uarchMiscCtl => { lp with uarchMiscCtl := v }
  | .apicBase => { lp with apicExtd := v.getLsbD 10, xapicDisabled := xapicLockWritten v lp }

/-! ### The two accesses, with their checks in order (R200) -/

/-- RDMSR of a known MSR (R190): privilege (R192), existence (R193), direction (R195), then the read. -/
def rdmsrOf (m : Msr) (s : State) : Result :=
  if s.cur.cpl ≠ 0 then raiseGP s
  else if msrExists m s.cur.cfg = false then raiseGP s
  else if msrClass m = .writeOnly then raiseGP s
  else complete s fun lp => (putEdxEax (msrRead m lp) lp).advance 2

/-- WRMSR to a known MSR (R191): privilege, existence, direction, reserved bits (R197), then, for
IA32_APIC_BASE, the refusal of R359, then legality (R199), then the write. Whether WRMSR can execute
inside a transaction is not in the source (R374, N33 of `91_not_in_source.md`): DESIGN CHOICE, it
completes there as it does outside (entry 39). -/
def wrmsrOf (m : Msr) (s : State) : Result :=
  let v := edxEax s.cur
  if s.cur.cpl ≠ 0 then raiseGP s
  else if msrExists m s.cur.cfg = false then raiseGP s
  else if msrClass m = .readOnly then raiseGP s
  else if v &&& msrReserved m s.cur.cfg ≠ 0 then raiseGP s
  else if msrOutside m v s.cur then refuse .apicBaseOtherFields
  else if msrLegal m v s.cur then complete s fun lp => (msrWrite m v lp).advance 2
  else if msrClamps m s.cur.cfg then
    complete s fun lp => (msrWrite m (msrClamp m v lp) lp).advance 2
  else raiseGP s

/-- An access to an index outside the spec (R194): privilege first (R200), then the refusal. -/
def accessOutside (s : State) : Result :=
  if s.cur.cpl ≠ 0 then raiseGP s else refuse (.msrOutsideSpec s.cur.ecx)

end Sys2Proof.Machine
end

