-- ==== Sys2Proof/Machine/Rdmsr.lean ====
section
/-! DEFINITION. RDMSR (`41_msr_access.md`): the instruction (R190) and its selector rows, one per MSR of
R54 and one for an index outside the spec (R194). -/

namespace Sys2Proof.Machine

/-- RDMSR (R190): the MSR is the one ECX names. -/
def execRdmsr (s : State) : Result :=
  match msrOfIndex s.cur.ecx with
  | some m => rdmsrOf m s
  | none => accessOutside s

/-- RDMSR with ECX = 10AH (R220). -/
def execRdmsrArchCapabilities (s : State) : Result :=
  whenSelected (s.cur.ecx == msrIndex .archCapabilities) (rdmsrOf .archCapabilities s)

/-- RDMSR with ECX = 48H (R250). -/
def execRdmsrSpecCtrl (s : State) : Result :=
  whenSelected (s.cur.ecx == msrIndex .specCtrl) (rdmsrOf .specCtrl s)

/-- RDMSR with ECX = 49H (R267): write-only, always #GP(0). -/
def execRdmsrPredCmd (s : State) : Result :=
  whenSelected (s.cur.ecx == msrIndex .predCmd) (rdmsrOf .predCmd s)

/-- RDMSR with ECX = 10BH (R272): write-only, always #GP(0). -/
def execRdmsrFlushCmd (s : State) : Result :=
  whenSelected (s.cur.ecx == msrIndex .flushCmd) (rdmsrOf .flushCmd s)

/-- RDMSR with ECX = 123H (R290). -/
def execRdmsrMcuOptCtrl (s : State) : Result :=
  whenSelected (s.cur.ecx == msrIndex .mcuOptCtrl) (rdmsrOf .mcuOptCtrl s)

/-- RDMSR with ECX = 122H (R320). -/
def execRdmsrTsxCtrl (s : State) : Result :=
  whenSelected (s.cur.ecx == msrIndex .tsxCtrl) (rdmsrOf .tsxCtrl s)

/-- RDMSR with ECX = 10FH (R332). -/
def execRdmsrTsxForceAbort (s : State) : Result :=
  whenSelected (s.cur.ecx == msrIndex .tsxForceAbort) (rdmsrOf .tsxForceAbort s)

/-- RDMSR with ECX = 1B01H (R350). -/
def execRdmsrUarchMiscCtl (s : State) : Result :=
  whenSelected (s.cur.ecx == msrIndex .uarchMiscCtl) (rdmsrOf .uarchMiscCtl s)

/-- RDMSR with ECX = BDH (R358). -/
def execRdmsrXapicDisableStatus (s : State) : Result :=
  whenSelected (s.cur.ecx == msrIndex .xapicDisableStatus) (rdmsrOf .xapicDisableStatus s)

/-- RDMSR with ECX = 1BH (R359): the bits other than EXTD are the ones held (entry 28). -/
def execRdmsrApicBase (s : State) : Result :=
  whenSelected (s.cur.ecx == msrIndex .apicBase) (rdmsrOf .apicBase s)

/-- RDMSR with an index outside the spec (R194): refused after the privilege check. -/
def execRdmsrOutside (s : State) : Result :=
  whenSelected (msrOfIndex s.cur.ecx == none) (accessOutside s)

end Sys2Proof.Machine
end

