-- ==== Sys2Proof/Machine/Wrmsr.lean ====
section
/-! DEFINITION. WRMSR (`41_msr_access.md`): the instruction (R191) and its selector rows, one per MSR of
R54 and one for an index outside the spec (R194).
The effect-only row WRMSR to MSR 79H stands here too (R362, R194). -/

namespace Sys2Proof.Machine

/-- WRMSR (R191): the MSR is the one ECX names. -/
def execWrmsr (s : State) : Result :=
  match msrOfIndex s.cur.ecx with
  | some m => wrmsrOf m s
  | none => accessOutside s

/-- WRMSR with ECX = 10AH (R221): read-only, always #GP(0). -/
def execWrmsrArchCapabilities (s : State) : Result :=
  whenSelected (s.cur.ecx == msrIndex .archCapabilities) (wrmsrOf .archCapabilities s)

/-- WRMSR with ECX = 48H (R251). -/
def execWrmsrSpecCtrl (s : State) : Result :=
  whenSelected (s.cur.ecx == msrIndex .specCtrl) (wrmsrOf .specCtrl s)

/-- WRMSR with ECX = 49H (R265): IBPB. -/
def execWrmsrPredCmd (s : State) : Result :=
  whenSelected (s.cur.ecx == msrIndex .predCmd) (wrmsrOf .predCmd s)

/-- WRMSR with ECX = 10BH (R270): L1D_FLUSH. -/
def execWrmsrFlushCmd (s : State) : Result :=
  whenSelected (s.cur.ecx == msrIndex .flushCmd) (wrmsrOf .flushCmd s)

/-- WRMSR with ECX = 123H (R291). -/
def execWrmsrMcuOptCtrl (s : State) : Result :=
  whenSelected (s.cur.ecx == msrIndex .mcuOptCtrl) (wrmsrOf .mcuOptCtrl s)

/-- WRMSR with ECX = 122H (R321). -/
def execWrmsrTsxCtrl (s : State) : Result :=
  whenSelected (s.cur.ecx == msrIndex .tsxCtrl) (wrmsrOf .tsxCtrl s)

/-- WRMSR with ECX = 10FH (R333). -/
def execWrmsrTsxForceAbort (s : State) : Result :=
  whenSelected (s.cur.ecx == msrIndex .tsxForceAbort) (wrmsrOf .tsxForceAbort s)

/-- WRMSR with ECX = 1B01H (R351). -/
def execWrmsrUarchMiscCtl (s : State) : Result :=
  whenSelected (s.cur.ecx == msrIndex .uarchMiscCtl) (wrmsrOf .uarchMiscCtl s)

/-- WRMSR with ECX = BDH (R357): read-only, always #GP(0). -/
def execWrmsrXapicDisableStatus (s : State) : Result :=
  whenSelected (s.cur.ecx == msrIndex .xapicDisableStatus) (wrmsrOf .xapicDisableStatus s)

/-- WRMSR with ECX = 1BH (R359): EXTD only. -/
def execWrmsrApicBase (s : State) : Result :=
  whenSelected (s.cur.ecx == msrIndex .apicBase) (wrmsrOf .apicBase s)

/-- WRMSR with an index outside the spec (R194): refused after the privilege check. -/
def execWrmsrOutside (s : State) : Result :=
  whenSelected (msrOfIndex s.cur.ecx == none) (accessOutside s)

/-- WRMSR to MSR 79H, which performs MCHECK: "The WRMSR to 79H itself is outside this spec" (R362, R194);
what its successful completion does is the input `mcheckComplete`. -/
def execWrmsrMcheck (s : State) : Result :=
  whenSelected (s.cur.ecx == 0x79) (accessOutside s)

end Sys2Proof.Machine
end

