-- ==== Sys2Proof/Machine/Dispatch.lean ====
section
/-! DEFINITION. The dispatch: one arm per row of `spec/opcode_table.json`, each a call of its meaning. -/

namespace Sys2Proof.Machine

def exec (i : Instr) (s : State) : Host.Outcome State Fault Refusal :=
  match i with
  | .cpuid => Sys2Proof.Machine.execCpuid s
  | .rdmsr => Sys2Proof.Machine.execRdmsr s
  | .wrmsr => Sys2Proof.Machine.execWrmsr s
  | .cpuidLeaf7Sub0 => Sys2Proof.Machine.execCpuidLeaf7Sub0 s
  | .cpuidLeaf7Sub2 => Sys2Proof.Machine.execCpuidLeaf7Sub2 s
  | .cpuidLeaf7Invalid => Sys2Proof.Machine.execCpuidLeaf7Invalid s
  | .cpuidLeaf7Other => Sys2Proof.Machine.execCpuidLeaf7Other s
  | .cpuidOtherLeaf => Sys2Proof.Machine.execCpuidOtherLeaf s
  | .rdmsrArchCapabilities => Sys2Proof.Machine.execRdmsrArchCapabilities s
  | .wrmsrArchCapabilities => Sys2Proof.Machine.execWrmsrArchCapabilities s
  | .rdmsrSpecCtrl => Sys2Proof.Machine.execRdmsrSpecCtrl s
  | .wrmsrSpecCtrl => Sys2Proof.Machine.execWrmsrSpecCtrl s
  | .rdmsrPredCmd => Sys2Proof.Machine.execRdmsrPredCmd s
  | .wrmsrPredCmd => Sys2Proof.Machine.execWrmsrPredCmd s
  | .rdmsrFlushCmd => Sys2Proof.Machine.execRdmsrFlushCmd s
  | .wrmsrFlushCmd => Sys2Proof.Machine.execWrmsrFlushCmd s
  | .rdmsrMcuOptCtrl => Sys2Proof.Machine.execRdmsrMcuOptCtrl s
  | .wrmsrMcuOptCtrl => Sys2Proof.Machine.execWrmsrMcuOptCtrl s
  | .rdmsrTsxCtrl => Sys2Proof.Machine.execRdmsrTsxCtrl s
  | .wrmsrTsxCtrl => Sys2Proof.Machine.execWrmsrTsxCtrl s
  | .rdmsrTsxForceAbort => Sys2Proof.Machine.execRdmsrTsxForceAbort s
  | .wrmsrTsxForceAbort => Sys2Proof.Machine.execWrmsrTsxForceAbort s
  | .rdmsrUarchMiscCtl => Sys2Proof.Machine.execRdmsrUarchMiscCtl s
  | .wrmsrUarchMiscCtl => Sys2Proof.Machine.execWrmsrUarchMiscCtl s
  | .rdmsrXapicDisableStatus => Sys2Proof.Machine.execRdmsrXapicDisableStatus s
  | .wrmsrXapicDisableStatus => Sys2Proof.Machine.execWrmsrXapicDisableStatus s
  | .rdmsrApicBase => Sys2Proof.Machine.execRdmsrApicBase s
  | .wrmsrApicBase => Sys2Proof.Machine.execWrmsrApicBase s
  | .rdmsrOutside => Sys2Proof.Machine.execRdmsrOutside s
  | .wrmsrOutside => Sys2Proof.Machine.execWrmsrOutside s
  | .verw op => Sys2Proof.Machine.execVerw op s
  | .xbegin rel => Sys2Proof.Machine.execXbegin rel s
  | .rdrand r => Sys2Proof.Machine.execRdrand r s
  | .rdseed r => Sys2Proof.Machine.execRdseed r s
  | .monitor => Sys2Proof.Machine.execMonitor s
  | .umonitor r => Sys2Proof.Machine.execUmonitor r s
  | .umwait r => Sys2Proof.Machine.execUmwait r s
  | .ret => Sys2Proof.Machine.execRet s
  | .retImm16 imm => Sys2Proof.Machine.execRetImm16 imm s
  | .wrmsrMcheck => Sys2Proof.Machine.execWrmsrMcheck s

end Sys2Proof.Machine
end

