-- ==== Sys2Proof/Machine/Env.lean ====
section
/-! DEFINITION. The environment events (`70_reset_and_hazards.md`, R362, R375, R376): what each
`EnvEvent` does to the machine.
How an input meets an abort of R374 that is due is not in the spec; entry 21 says what the model does, and
`LogicalProcessor.takeDueAbort` is it. -/

namespace Sys2Proof.Machine

/-! ### Reset (R420, R423) -/

/-- IA32_MCU_OPT_CTRL after reset (R420, R427): bits 1 to 3 and 5 as configured, bit 6 at its default
of 1, the rest 0; a field that is not enumerated reads 0 (R305 d). -/
def mcuReset (c : Cfg) : Quad :=
  (maskBit 1 (c.resetRtmAllow && !c.resetRtmLocked) ||| maskBit 2 c.resetRtmLocked |||
    maskBit 3 c.resetFbClearDis ||| maskBit 5 c.gdsLockAtMcuLoad ||| maskBit 6 true) &&&
    mcuImplemented c

/-- IA32_TSX_CTRL after reset (R420, R325). -/
def tsxCtrlReset (c : Cfg) : Quad := c.resetTsxCtrl.setWidth 64

/-- The stored bits of IA32_TSX_FORCE_ABORT after reset (R420). -/
def tfaReset (c : Cfg) : BitVec 3 := setBit 0 0 c.resetTfaBit0

/-- One logical processor after `Reset` with configuration `c` (R420); `here` says whether the package has
it (R22). The fields are the stored values of the rule's assignments; one that is not enumerated reads 0
whatever is stored (entry 41). -/
def LogicalProcessor.resetTo (c : Cfg) (here : Bool) (lp : LogicalProcessor) : LogicalProcessor :=
  { lp with
    present := here
    cfg := c
    eax := lp.start.eax
    ebx := lp.start.ebx
    ecx := lp.start.ecx
    edx := lp.start.edx
    cpl := lp.start.cpl
    ip := lp.start.ip
    inEnclave := false
    inRtm := false
    rtmFallback := 0
    events := []
    effects := []
    specCtrl := 0
    mcuOptCtrl := mcuReset c
    tsxCtrl := tsxCtrlReset c
    tsxForceAbort := tfaReset c
    uarchMiscCtl := 0
    xapicDisabled := c.resetXapicLocked
    gdsLockHeld := false
    apicExtd := lp.start.apicExtd || c.resetXapicLocked
    apicOther := lp.start.apicOther }

/-! ### Microcode update load (R426, R427) -/

/-- A field across a load (R426, R427): kept where enumerated before and after, its reset value where
newly enumerated, dropped where no longer enumerated; a field enumerated neither before nor after is
left as it is (entry 22). -/
def loadField {α : Type} (before after : Bool) (kept fresh dropped : α) : α :=
  if after then (if before then kept else fresh)
  else if before then dropped
  else kept

/-- IA32_MCU_OPT_CTRL across a load from `old` to `c`: GDS_MITG_DIS goes to 0, GDS_MITG_LOCK is the old
value or the load's (R427); the lock that an earlier load took away while it was set (`held`) is set again
where it is enumerated again. -/
def mcuLoaded (old c : Cfg) (held : Bool) (v : Quad) : Quad :=
  let kept := v &&& (mcuImplemented old &&& mcuImplemented c)
  let fresh := mcuReset c &&& (mcuImplemented c &&& ~~~mcuImplemented old)
  setBit (setBit (kept ||| fresh) 4 false) 5
    (archCapBit c 25 && (v.getLsbD 5 || held || c.gdsLockAtMcuLoad))

/-- LEGACY_XAPIC_DISABLED across a load (R426, R427). -/
def xapicLoaded (old c : Cfg) (locked : Bool) : Bool :=
  loadField (msrExists .xapicDisableStatus old) (msrExists .xapicDisableStatus c) locked
    c.resetXapicLocked false

/-- One logical processor across `McuLoad` to configuration `c` (R426); `here` says whether the package
has it (R22). -/
def LogicalProcessor.loadTo (c : Cfg) (here : Bool) (lp : LogicalProcessor) : LogicalProcessor :=
  { lp with
    present := here
    cfg := c
    events := lp.events ++ [.mcuLoad]
    specCtrl := lp.specCtrl &&& (specCtrlImplemented lp.cfg &&& specCtrlImplemented c)
    mcuOptCtrl := mcuLoaded lp.cfg c lp.gdsLockHeld lp.mcuOptCtrl
    tsxCtrl :=
      loadField (msrExists .tsxCtrl lp.cfg) (msrExists .tsxCtrl c) lp.tsxCtrl (tsxCtrlReset c) 0
    tsxForceAbort :=
      loadField (msrExists .tsxForceAbort lp.cfg) (msrExists .tsxForceAbort c) lp.tsxForceAbort
        (tfaReset c) 0
    uarchMiscCtl :=
      loadField (msrExists .uarchMiscCtl lp.cfg) (msrExists .uarchMiscCtl c) lp.uarchMiscCtl 0 0
    xapicDisabled := xapicLoaded lp.cfg c lp.xapicDisabled
    gdsLockHeld := !archCapBit c 25 && (lp.mcuOptCtrl.getLsbD 5 || lp.gdsLockHeld)
    apicExtd := lp.apicExtd ||
      (msrExists .xapicDisableStatus c && xapicLoaded lp.cfg c lp.xapicDisabled) }

/-! ### Which logical processors the package has (R22) -/

/-- The configuration an assignment gives to the logical processor numbered `n` (R22). -/
def CfgAssignment.forLp (a : CfgAssignment) (n : Nat) : Cfg :=
  match a.perLp.find? fun p => p.1 == n with
  | some p => p.2
  | none => a.dflt

/-- The order in which logical processors are taken into the package: the executing one, the others the
package has, then the ones it has not (entry 27). -/
def State.placeOrder (s : State) : List LogicalProcessor :=
  s.cur :: (s.others.filter (fun t => t.present) ++ s.others.filter fun t => !t.present)

/-- Whether the package has `lp` under an assignment: the first CORES cores, and of each the first
THREADS_PER_CORE logical processors (R22; entry 27). -/
def State.placed (s : State) (a : CfgAssignment) (lp : LogicalProcessor) : Bool :=
  let c := a.forLp lp.id
  let sameCore := (s.placeOrder.takeWhile fun t => t.id != lp.id).filter fun t => t.core == lp.core
  decide (coreCount (s.placeOrder.takeWhile fun t => t.core != lp.core) < c.cores) &&
    decide (sameCore.length < c.threadsPerCore)

/-- The machine with an assignment's configurations and the logical processors they give the package. -/
def State.assigned (s : State) (a : CfgAssignment) : State :=
  s.onAll fun lp => { lp with cfg := a.forLp lp.id, present := s.placed a lp }

/-- The assignment gives every logical processor a well-formed configuration (R426), and the package then
has the cores and threads it says (R22; entry 23). -/
def State.accepts (s : State) (a : CfgAssignment) : Bool :=
  (s.threads.all fun lp => cfgWf (a.forLp lp.id)) && (s.assigned a).topologyOk

/-- `Reset(cfg0)` (R420). It clears `in_rtm`, so an abort that is due falls away with the transaction. -/
def applyReset (a : CfgAssignment) (s : State) : Result :=
  if s.accepts a then .next (s.onAll fun lp => lp.resetTo (a.forLp lp.id) (s.placed a lp))
  else refuse .illFormedCfg

/-- `McuLoad(cfg')` (R426). An abort that is due comes first, since the load may end the mode. -/
def applyMcuLoad (a : CfgAssignment) (s : State) : Result :=
  if s.accepts a then
    .next (s.onAll fun lp => lp.takeDueAbort.loadTo (a.forLp lp.id) (s.placed a lp))
  else refuse .illFormedCfg

/-! ### MCHECK, enclaves, transactions, the platform's lock -/

/-- MCHECK completed (R362): in x2APIC mode the lock is set. -/
def LogicalProcessor.mcheck (lp : LogicalProcessor) : LogicalProcessor :=
  { lp with
    xapicDisabled :=
      lp.xapicDisabled || (msrExists .xapicDisableStatus lp.cfg && lp.apicExtd) }

/-- The overwrite at the enclave boundary (R376), where the boundary is crossed. -/
def overwriteAt (crossed : Bool) (lp : LogicalProcessor) : LogicalProcessor :=
  if crossed && taaSgxBehaviour lp.cfg then lp.emit .enclaveBufferOverwrite else lp

/-- The logical processor enters its enclave (R375, R376). -/
def LogicalProcessor.enter (lp : LogicalProcessor) : LogicalProcessor :=
  { overwriteAt (!lp.inEnclave) lp with inEnclave := true }

/-- The logical processor leaves its enclave (R376). -/
def LogicalProcessor.leave (lp : LogicalProcessor) : LogicalProcessor :=
  { overwriteAt lp.inEnclave lp with inEnclave := false }

/-- A sibling in a transaction when logical processor `n` of core `core` enters an enclave (R375): it
aborts, with EAX a free value. -/
def abortForSibling (draws n core : Nat) (t : LogicalProcessor) : LogicalProcessor :=
  if t.present && t.core == core && t.id != n && t.inRtm && taaSgxBehaviour t.cfg &&
      t.cfg.hyperthreading then
    t.rtmAbort .siblingEnclave (Config.freeAbortEax draws t.id) t.rtmFallback
  else t

/-- `EnclaveEnter(n)` (R375, R376); `core` is the core of logical processor `n`. A sibling on which the abort
of R374 is due aborts here too, with the cause and the EAX of R375 (`95` V-E9). -/
def enclaveEntered (n core : Nat) (s : State) : State :=
  s.drawn.onAll fun lp => abortForSibling s.draws n core (onNumber n LogicalProcessor.enter lp)

/-- The logical processor numbered `n`, if the package has it. -/
def State.findLp (s : State) (n : Nat) : Option LogicalProcessor := s.lps.find? fun lp => lp.id == n

/-- `EnclaveEnter(n)` (R375, R376). -/
def applyEnclaveEnter (n : Nat) (s : State) : Result :=
  match s.findLp n with
  | some e => .next (enclaveEntered n e.core s)
  | none => refuse (.noSuchLogicalProcessor n)

/-- A transaction is in progress from now on (R26), unless a sibling in an enclave prevents it from
starting (R375; entry 20). -/
def LogicalProcessor.begin (fallback : Nat) (lp : LogicalProcessor) : LogicalProcessor :=
  { lp with inRtm := true, rtmFallback := fallback }

/-- `lp.in_rtm` set by the environment (R26, R374, R375). What setting it again does while a transaction is
in progress that is not due to abort (nesting) is not in the spec: DESIGN CHOICE, there is one transaction
and its fallback address is replaced by the new one (entry 20). -/
def applyRtmBegin (n fallback : Nat) (s : State) : Result :=
  match s.findLp n with
  | some lp =>
    if siblingInEnclaveBlocksTsx s lp then .next (s.onLp n LogicalProcessor.takeDueAbort)
    else .next (s.onLp n fun lp => lp.takeDueAbort.begin fallback)
  | none => refuse (.noSuchLogicalProcessor n)

/-- RTM_LOCKED set by the platform (R295): RTM_ALLOW is then locked at zero. Only where the two bits
are implemented (entry 25). -/
def LogicalProcessor.lockRtm (lp : LogicalProcessor) : LogicalProcessor :=
  { lp with
    mcuOptCtrl :=
      if lp.cfg.mcuRtmBits then setBit (setBit lp.mcuOptCtrl 1 false) 2 true else lp.mcuOptCtrl }

/-- An event that changes one logical processor. -/
def applyToLp (n : Nat) (f : LogicalProcessor → LogicalProcessor) (s : State) : Result :=
  if s.hasLp n then .next (s.onLp n f) else refuse (.noSuchLogicalProcessor n)

/-- Logical processor `n` executes from now on (R405); the one that did takes its place among the
others. -/
def applySchedule (n : Nat) (s : State) : Result :=
  if s.cur.present ∧ s.cur.id = n then .next s
  else
    match s.others.find? fun lp => lp.present && lp.id == n with
    | some t =>
      .next { s with cur := t, others := insertLp s.cur (s.others.filter fun lp => lp.id != n) }
    | none => refuse (.noSuchLogicalProcessor n)

/-- The transaction is no longer in progress (R26). One that is due to abort aborts, with its record and
EAX 0, instead of ending (entry 21). -/
def LogicalProcessor.endRtm (lp : LogicalProcessor) : LogicalProcessor :=
  { lp.takeDueAbort with inRtm := false }

/-- What instructions outside the spec leave in the registers the spec's machine has (entry 37); an abort
that is due comes before them (R374). -/
def LogicalProcessor.putRegisters (eax ebx ecx edx : Word) (ip : Nat) (lp : LogicalProcessor) :
    LogicalProcessor :=
  { lp.takeDueAbort with eax := eax, ebx := ebx, ecx := ecx, edx := edx, ip := ip }

/-- What an event does. INIT# and SIPI# change nothing of this machine (R424). An event that
stands for instructions, ends or begins a transaction or replaces the configuration takes an abort that
R374 makes due first; the others leave it due: DESIGN CHOICE, entry 21. -/
def applyEvent (e : EnvEvent) (s : State) : Result :=
  match e with
  | .schedule n => applySchedule n s
  | .reset a => applyReset a s
  | .init n => applyToLp n id s
  | .sipi n => applyToLp n id s
  | .mcuLoad a => applyMcuLoad a s
  | .mcheckComplete n => applyToLp n LogicalProcessor.mcheck s
  | .enclaveEnter n => applyEnclaveEnter n s
  | .enclaveExit n => applyToLp n LogicalProcessor.leave s
  | .rtmBegin n fallback => applyRtmBegin n fallback s
  | .rtmEnd n => applyToLp n LogicalProcessor.endRtm s
  | .rtmLock n => applyToLp n LogicalProcessor.lockRtm s
  | .software n eax ebx ecx edx ip =>
    applyToLp n (LogicalProcessor.putRegisters eax ebx ecx edx ip) s

end Sys2Proof.Machine
end

