-- ==== Sys2Proof/Machine/Fetch.lean ====
section
/-! DEFINITION. From the program's bytes to the instruction that runs: the fetch at `ip` (R23, R116,
R131) and the choice of the selector row by the register values at execution time (R133). -/

namespace Sys2Proof.Machine

/-- What the decoder makes of the program's bytes at `ip`. -/
def fetch (s : State) : Decoded := decode (Memory.bytesAt s.code s.cur.ip maxInstrBytes)

/-- The selector row of CPUID for these registers (R160, R133). -/
def selectCpuid (lp : LogicalProcessor) : Instr :=
  if lp.eax = 7 then
    if subleafValid lp = false then .cpuidLeaf7Invalid
    else if lp.ecx = 0 then .cpuidLeaf7Sub0
    else if lp.ecx = 2 then .cpuidLeaf7Sub2
    else .cpuidLeaf7Other
  else .cpuidOtherLeaf

/-- The selector row of RDMSR for the index in ECX (R133). -/
def selectRdmsr (idx : Word) : Instr :=
  match msrOfIndex idx with
  | some .specCtrl => .rdmsrSpecCtrl
  | some .predCmd => .rdmsrPredCmd
  | some .xapicDisableStatus => .rdmsrXapicDisableStatus
  | some .archCapabilities => .rdmsrArchCapabilities
  | some .flushCmd => .rdmsrFlushCmd
  | some .tsxForceAbort => .rdmsrTsxForceAbort
  | some .tsxCtrl => .rdmsrTsxCtrl
  | some .mcuOptCtrl => .rdmsrMcuOptCtrl
  | some .uarchMiscCtl => .rdmsrUarchMiscCtl
  | some .apicBase => .rdmsrApicBase
  | none => .rdmsrOutside

/-- The selector row of WRMSR for the index in ECX (R133); 79H has a row of its own (R362). -/
def selectWrmsr (idx : Word) : Instr :=
  match msrOfIndex idx with
  | some .specCtrl => .wrmsrSpecCtrl
  | some .predCmd => .wrmsrPredCmd
  | some .xapicDisableStatus => .wrmsrXapicDisableStatus
  | some .archCapabilities => .wrmsrArchCapabilities
  | some .flushCmd => .wrmsrFlushCmd
  | some .tsxForceAbort => .wrmsrTsxForceAbort
  | some .tsxCtrl => .wrmsrTsxCtrl
  | some .mcuOptCtrl => .wrmsrMcuOptCtrl
  | some .uarchMiscCtl => .wrmsrUarchMiscCtl
  | some .apicBase => .wrmsrApicBase
  | none => if idx = 0x79 then .wrmsrMcheck else .wrmsrOutside

/-- The row of an instruction in a state (R133): "a decoder dispatches on the bytes first and on the
register value at execution time". An instruction without selector rows is its own row. -/
def select (i : Instr) (s : State) : Instr :=
  match i with
  | .cpuid => selectCpuid s.cur
  | .rdmsr => selectRdmsr s.cur.ecx
  | .wrmsr => selectWrmsr s.cur.ecx
  | row => row

end Sys2Proof.Machine
end

