-- ==== Sys2Proof/Machine/Step.lean ====
section
/-! DEFINITION. One step of the machine (R14, R395): the head of the queue of inputs where there is one,
an event of the environment or the executing logical processor's turn; with the queue empty, its
turn. -/

namespace Sys2Proof.Machine

/-- Fetch, decode and run one instruction; bytes that spell none are refused (R131). -/
def runInstr (s : State) : Host.Outcome State Fault Refusal :=
  match fetch s with
  | .instr i _ => exec (select i s) s
  | .rejected why => .refused (.undecoded why)

/-- The executing logical processor's turn: the abort of R374 where a transaction is in progress, else
one instruction. -/
def runCur (s : State) : Host.Outcome State Fault Refusal :=
  if rtmMustAbort s.cur then abortInProgress s else runInstr s

/-- One step. -/
def step (s : State) : Host.Outcome State Fault Refusal :=
  match s.pending with
  | [] => runCur s
  | .execute :: rest => runCur { s with pending := rest }
  | .event e :: rest => applyEvent e { s with pending := rest }

/-- The state with a row's bytes placed where the next instruction is fetched: it stands for loading
the program (entries 8 and 9). -/
def State.withFetchWord (s : State) (nbits w : Nat) : State :=
  { s with code := Memory.writeAll s.code s.cur.ip (tableBytes nbits w) }

end Sys2Proof.Machine
end

