-- ==== Sys2Proof/WellFormed.lean ====
section
/-! DEFINITION. Well-formed instruction terms: those the encoding tables can write (R130, R134). Every
operand but VERW's is well formed at every value. The constraints on a configuration are
`Machine.Cfg` checks in Machine/Flags.lean. -/

namespace Sys2Proof

/-- The operand of VERW has exactly the SIB and displacement bytes its mod and rm fields call for. -/
def RmOperand.wf (op : RmOperand) : Bool :=
  op.tail.length == modRmTailLength op.mod op.rm op.tail

/-- A well-formed instruction. -/
def Instr.wf : Instr → Bool
  | .verw op => op.wf
  | .cpuid | .rdmsr | .wrmsr => true
  | .cpuidLeaf7Sub0 | .cpuidLeaf7Sub2 | .cpuidLeaf7Invalid | .cpuidLeaf7Other | .cpuidOtherLeaf => true
  | .rdmsrArchCapabilities | .wrmsrArchCapabilities | .rdmsrSpecCtrl | .wrmsrSpecCtrl => true
  | .rdmsrPredCmd | .wrmsrPredCmd | .rdmsrFlushCmd | .wrmsrFlushCmd => true
  | .rdmsrMcuOptCtrl | .wrmsrMcuOptCtrl | .rdmsrTsxCtrl | .wrmsrTsxCtrl => true
  | .rdmsrTsxForceAbort | .wrmsrTsxForceAbort | .rdmsrUarchMiscCtl | .wrmsrUarchMiscCtl => true
  | .rdmsrXapicDisableStatus | .wrmsrXapicDisableStatus | .rdmsrApicBase | .wrmsrApicBase => true
  | .rdmsrOutside | .wrmsrOutside => true
  | .xbegin _ | .rdrand _ | .rdseed _ | .monitor | .umonitor _ | .umwait _ => true
  | .ret | .retImm16 _ | .wrmsrMcheck => true

end Sys2Proof
end

