-- ==== Sys2Proof/Laws/PerInstr.lean ====
section
/-! SUPPORT. The one family of statements made instruction by instruction: the bytes the encoder writes
for a well-formed instruction are at least one and at most `maxInstrBytes` (R130, R134). -/

namespace Sys2Proof.Laws

/-- The encoder writes between one byte and `maxInstrBytes` bytes for a well-formed instruction. -/
def EncodedLength.Statement (i : Instr) : Prop :=
  i.wf = true → 1 ≤ (encode i).length ∧ (encode i).length ≤ maxInstrBytes

/-- The bytes behind a ModRM byte are at most five: a SIB byte and four displacement bytes. -/
theorem modRmTailLength_le (mod : BitVec 2) (rm : BitVec 3) (tail : List Byte) :
    modRmTailLength mod rm tail ≤ 5 := by
  unfold modRmTailLength dispLength
  repeat' split
  all_goals decide

theorem EncodedLength.cpuid : EncodedLength.Statement .cpuid := fun _ => by decide
theorem EncodedLength.rdmsr : EncodedLength.Statement .rdmsr := fun _ => by decide
theorem EncodedLength.wrmsr : EncodedLength.Statement .wrmsr := fun _ => by decide
theorem EncodedLength.cpuidLeaf7Sub0 : EncodedLength.Statement .cpuidLeaf7Sub0 := fun _ => by decide
theorem EncodedLength.cpuidLeaf7Sub2 : EncodedLength.Statement .cpuidLeaf7Sub2 := fun _ => by decide
theorem EncodedLength.cpuidLeaf7Invalid : EncodedLength.Statement .cpuidLeaf7Invalid := fun _ => by decide
theorem EncodedLength.cpuidLeaf7Other : EncodedLength.Statement .cpuidLeaf7Other := fun _ => by decide
theorem EncodedLength.cpuidOtherLeaf : EncodedLength.Statement .cpuidOtherLeaf := fun _ => by decide
theorem EncodedLength.rdmsrArchCapabilities : EncodedLength.Statement .rdmsrArchCapabilities := fun _ => by decide
theorem EncodedLength.wrmsrArchCapabilities : EncodedLength.Statement .wrmsrArchCapabilities := fun _ => by decide
theorem EncodedLength.rdmsrSpecCtrl : EncodedLength.Statement .rdmsrSpecCtrl := fun _ => by decide
theorem EncodedLength.wrmsrSpecCtrl : EncodedLength.Statement .wrmsrSpecCtrl := fun _ => by decide
theorem EncodedLength.rdmsrPredCmd : EncodedLength.Statement .rdmsrPredCmd := fun _ => by decide
theorem EncodedLength.wrmsrPredCmd : EncodedLength.Statement .wrmsrPredCmd := fun _ => by decide
theorem EncodedLength.rdmsrFlushCmd : EncodedLength.Statement .rdmsrFlushCmd := fun _ => by decide
theorem EncodedLength.wrmsrFlushCmd : EncodedLength.Statement .wrmsrFlushCmd := fun _ => by decide
theorem EncodedLength.rdmsrMcuOptCtrl : EncodedLength.Statement .rdmsrMcuOptCtrl := fun _ => by decide
theorem EncodedLength.wrmsrMcuOptCtrl : EncodedLength.Statement .wrmsrMcuOptCtrl := fun _ => by decide
theorem EncodedLength.rdmsrTsxCtrl : EncodedLength.Statement .rdmsrTsxCtrl := fun _ => by decide
theorem EncodedLength.wrmsrTsxCtrl : EncodedLength.Statement .wrmsrTsxCtrl := fun _ => by decide
theorem EncodedLength.rdmsrTsxForceAbort : EncodedLength.Statement .rdmsrTsxForceAbort := fun _ => by decide
theorem EncodedLength.wrmsrTsxForceAbort : EncodedLength.Statement .wrmsrTsxForceAbort := fun _ => by decide
theorem EncodedLength.rdmsrUarchMiscCtl : EncodedLength.Statement .rdmsrUarchMiscCtl := fun _ => by decide
theorem EncodedLength.wrmsrUarchMiscCtl : EncodedLength.Statement .wrmsrUarchMiscCtl := fun _ => by decide
theorem EncodedLength.rdmsrXapicDisableStatus : EncodedLength.Statement .rdmsrXapicDisableStatus := fun _ => by decide
theorem EncodedLength.wrmsrXapicDisableStatus : EncodedLength.Statement .wrmsrXapicDisableStatus := fun _ => by decide
theorem EncodedLength.rdmsrApicBase : EncodedLength.Statement .rdmsrApicBase := fun _ => by decide
theorem EncodedLength.wrmsrApicBase : EncodedLength.Statement .wrmsrApicBase := fun _ => by decide
theorem EncodedLength.rdmsrOutside : EncodedLength.Statement .rdmsrOutside := fun _ => by decide
theorem EncodedLength.wrmsrOutside : EncodedLength.Statement .wrmsrOutside := fun _ => by decide
theorem EncodedLength.verw (op : RmOperand) : EncodedLength.Statement (.verw op) := by
  intro h
  have hlen : op.tail.length = modRmTailLength op.mod op.rm op.tail := by
    simpa [Instr.wf, RmOperand.wf] using h
  have hle := modRmTailLength_le op.mod op.rm op.tail
  simp only [encode, Instr.base, encodeBase, List.length_append, List.length_cons, List.length_nil,
    maxInstrBytes]
  omega
theorem EncodedLength.xbegin (rel : RelOperand) : EncodedLength.Statement (.xbegin rel) := by
  intro _
  cases rel <;>
    simp [encode, Instr.base, encodeBase, encodeXbegin, bytesOf32, bytesOf16, maxInstrBytes]
theorem EncodedLength.rdrand (r : RegField) : EncodedLength.Statement (.rdrand r) := fun _ => by
  simp [encode, Instr.base, encodeBase, maxInstrBytes]
theorem EncodedLength.rdseed (r : RegField) : EncodedLength.Statement (.rdseed r) := fun _ => by
  simp [encode, Instr.base, encodeBase, maxInstrBytes]
theorem EncodedLength.monitor : EncodedLength.Statement .monitor := fun _ => by decide
theorem EncodedLength.umonitor (r : RegField) : EncodedLength.Statement (.umonitor r) := fun _ => by
  simp [encode, Instr.base, encodeBase, maxInstrBytes]
theorem EncodedLength.umwait (r : RegField) : EncodedLength.Statement (.umwait r) := fun _ => by
  simp [encode, Instr.base, encodeBase, maxInstrBytes]
theorem EncodedLength.ret : EncodedLength.Statement .ret := fun _ => by decide
theorem EncodedLength.retImm16 (imm : BitVec 16) : EncodedLength.Statement (.retImm16 imm) := fun _ => by
  simp [encode, Instr.base, encodeBase, maxInstrBytes, bytesOf16]
theorem EncodedLength.wrmsrMcheck : EncodedLength.Statement .wrmsrMcheck := fun _ => by decide

end Sys2Proof.Laws
end

