-- ==== Sys2Proof/Safety.lean ====
section
/-! DEFINITION. What claims are stated in: the outcome of a step (R410), the invariants of the stored
state (R53, R204, R305), the selector of each row (R133), and the licence an access needs (R429). -/

namespace Sys2Proof.Machine

/-! ### Outcomes (R410) -/

/-- The state a step leads to, if it completes. -/
def nextOf (r : Result) : Option State :=
  match r with
  | .next t => some t
  | .fault _ => none
  | .refused _ => none

/-- The step faults. -/
def faults (r : Result) : Bool :=
  match r with
  | .next _ => false
  | .fault _ => true
  | .refused _ => false

/-- The refusal of a step, if it is refused. -/
def refusalOf (r : Result) : Option Refusal :=
  match r with
  | .next _ => none
  | .fault _ => none
  | .refused w => some w

/-! ### Invariants -/

/-- R305 (a) to (d): the invariants of the stored IA32_MCU_OPT_CTRL. -/
def mcuOk (c : Cfg) (v : Quad) : Bool :=
  !(v.getLsbD 2 && v.getLsbD 1) && !(v.getLsbD 5 && v.getLsbD 4) &&
    decide (v &&& ~~~mcuImplemented c = 0)

/-- What holds of every logical processor in every run: a well-formed configuration (R33, R41); 0 in
every reserved position of an R/W MSR (R204); R305; the APIC lock only in x2APIC mode (R53); GDS_MITG_LOCK
is held only while it is not enumerated (entry 22). -/
def lpOk (lp : LogicalProcessor) : Bool :=
  cfgWf lp.cfg &&
  decide (lp.specCtrl &&& ~~~specCtrlImplemented lp.cfg = 0) &&
  mcuOk lp.cfg lp.mcuOptCtrl &&
  decide (lp.tsxCtrl &&& ~~~3 = 0) &&
  decide (lp.uarchMiscCtl &&& ~~~1 = 0) &&
  (!legacyXapicDisabled lp || lp.apicExtd) &&
  !(lp.gdsLockHeld && archCapBit lp.cfg 25)

/-- Logical processors in strictly ascending order of their numbers. -/
def ascending : List LogicalProcessor → Bool
  | [] => true
  | lp :: ts => (ts.all fun t => decide (lp.id < t.id)) && ascending ts

/-- No two logical processors share a number, and the others stand in order. -/
def State.numbersOk (s : State) : Bool :=
  ascending s.others && s.others.all fun t => t.id != s.cur.id

/-- The invariant of the machine: every logical processor is as `lpOk` says, the numbers are distinct, the
package has the cores and threads its configurations say (R22), and the program is in canonical form. -/
def State.ok (s : State) : Bool :=
  s.threads.all lpOk && s.numbersOk && s.topologyOk && Memory.wf s.code

/-- GDS_MITG_LOCK has been set since reset, enumerated or held (R299, R305 e, R427). -/
def gdsLocked (lp : LogicalProcessor) : Bool := lp.mcuOptCtrl.getLsbD 5 || lp.gdsLockHeld

/-- No logical processor is in a transaction that a sibling in an enclave excludes (R375). -/
def State.rtmIsolated (s : State) : Bool :=
  s.lps.all fun lp => !(siblingInEnclaveBlocksTsx s lp && lp.inRtm)

/-! ### Selectors (R133) -/

/-- The `source_fields` of a row of `spec/opcode_table.json`, as a test of the registers: true for a
row that is no selector row. -/
def rowSelects (i : Instr) (lp : LogicalProcessor) : Bool :=
  match i with
  | .cpuidLeaf7Sub0 => decide (lp.eax = 7 ∧ lp.ecx = 0)
  | .cpuidLeaf7Sub2 => decide (lp.eax = 7 ∧ lp.ecx = 2 ∧ 2 ≤ lp.cfg.maxSubleaf7)
  | .cpuidLeaf7Invalid => decide (lp.eax = 7 ∧ lp.cfg.maxSubleaf7 < lp.ecx.toNat)
  | .cpuidLeaf7Other =>
    decide (lp.eax = 7 ∧ lp.ecx ≠ 0 ∧ lp.ecx ≠ 2 ∧ lp.ecx.toNat ≤ lp.cfg.maxSubleaf7)
  | .cpuidOtherLeaf => decide (lp.eax ≠ 7)
  | .rdmsrArchCapabilities | .wrmsrArchCapabilities => decide (lp.ecx = 0x10A)
  | .rdmsrSpecCtrl | .wrmsrSpecCtrl => decide (lp.ecx = 0x48)
  | .rdmsrPredCmd | .wrmsrPredCmd => decide (lp.ecx = 0x49)
  | .rdmsrFlushCmd | .wrmsrFlushCmd => decide (lp.ecx = 0x10B)
  | .rdmsrMcuOptCtrl | .wrmsrMcuOptCtrl => decide (lp.ecx = 0x123)
  | .rdmsrTsxCtrl | .wrmsrTsxCtrl => decide (lp.ecx = 0x122)
  | .rdmsrTsxForceAbort | .wrmsrTsxForceAbort => decide (lp.ecx = 0x10F)
  | .rdmsrUarchMiscCtl | .wrmsrUarchMiscCtl => decide (lp.ecx = 0x1B01)
  | .rdmsrXapicDisableStatus | .wrmsrXapicDisableStatus => decide (lp.ecx = 0xBD)
  | .rdmsrApicBase | .wrmsrApicBase => decide (lp.ecx = 0x1B)
  | .rdmsrOutside | .wrmsrOutside =>
    decide (lp.ecx ∉ [(0x1B : Word), 0x48, 0x49, 0xBD, 0x10A, 0x10B, 0x10F, 0x122, 0x123, 0x1B01])
  | .wrmsrMcheck => decide (lp.ecx = 0x79)
  | .cpuid | .rdmsr | .wrmsr | .verw _ | .xbegin _ | .rdrand _ | .rdseed _ => true
  | .monitor | .umonitor _ | .umwait _ | .ret | .retImm16 _ => true

/-! ### Licensed accesses (R429 step 4) -/

/-- RDMSR of `m` is licensed: privilege, existence, direction. -/
def readLicensed (m : Msr) (lp : LogicalProcessor) : Bool :=
  decide (lp.cpl = 0) && msrExists m lp.cfg && decide (msrClass m ≠ .writeOnly)

/-- WRMSR of `v` to `m` is licensed: privilege, existence, direction, no reserved bit, nothing outside
the spec, and every bit it sets may be set. -/
def writeLicensed (m : Msr) (v : Quad) (lp : LogicalProcessor) : Bool :=
  decide (lp.cpl = 0) && msrExists m lp.cfg && decide (msrClass m ≠ .readOnly) &&
    decide (v &&& msrReserved m lp.cfg = 0) && !msrOutside m v lp && msrLegal m v lp

/-! ### The tables of R203 and R54 as the spec prints them -/

/-- The positions of IA32_SPEC_CTRL and what enumerates each (R42). -/
def specCtrlBitEnumerated (c : Cfg) (n : Nat) : Bool :=
  match n with
  | 0 => c70EdxBit c 26
  | 1 => c70EdxBit c 27
  | 2 => c70EdxBit c 31
  | 3 | 4 => c72EdxBit c 1
  | 5 | 6 => c72EdxBit c 2
  | 7 => c72EdxBit c 0
  | 8 => c72EdxBit c 3
  | 10 => c72EdxBit c 4
  | _ => false

/-- The positions of IA32_MCU_OPT_CTRL and what enumerates each (R45). -/
def mcuBitEnumerated (c : Cfg) (n : Nat) : Bool :=
  match n with
  | 0 => c70EdxBit c 9
  | 1 | 2 => c.mcuRtmBits
  | 3 => archCapBit c 18
  | 4 | 5 => archCapBit c 25
  | 6 => archCapBit c 29
  | 7 => archCapBit c 30
  | _ => false

/-- `W(idx)` of R203, position by position; for IA32_APIC_BASE, where R203 has no mask, every
position. -/
def bitMayBeSet (m : Msr) (c : Cfg) (n : Nat) : Bool :=
  match m with
  | .specCtrl => specCtrlBitEnumerated c n
  | .predCmd | .flushCmd | .uarchMiscCtl => decide (n = 0)
  | .tsxForceAbort => decide (n ≤ 2)
  | .tsxCtrl => decide (n ≤ 1)
  | .mcuOptCtrl => mcuBitEnumerated c n
  | .xapicDisableStatus | .archCapabilities => false
  | .apicBase => true

/-- The RDMSR row of an MSR. -/
def rdmsrRow : Msr → Instr
  | .specCtrl => .rdmsrSpecCtrl
  | .predCmd => .rdmsrPredCmd
  | .xapicDisableStatus => .rdmsrXapicDisableStatus
  | .archCapabilities => .rdmsrArchCapabilities
  | .flushCmd => .rdmsrFlushCmd
  | .tsxForceAbort => .rdmsrTsxForceAbort
  | .tsxCtrl => .rdmsrTsxCtrl
  | .mcuOptCtrl => .rdmsrMcuOptCtrl
  | .uarchMiscCtl => .rdmsrUarchMiscCtl
  | .apicBase => .rdmsrApicBase

/-- The WRMSR row of an MSR. -/
def wrmsrRow : Msr → Instr
  | .specCtrl => .wrmsrSpecCtrl
  | .predCmd => .wrmsrPredCmd
  | .xapicDisableStatus => .wrmsrXapicDisableStatus
  | .archCapabilities => .wrmsrArchCapabilities
  | .flushCmd => .wrmsrFlushCmd
  | .tsxForceAbort => .wrmsrTsxForceAbort
  | .tsxCtrl => .wrmsrTsxCtrl
  | .mcuOptCtrl => .wrmsrMcuOptCtrl
  | .uarchMiscCtl => .wrmsrUarchMiscCtl
  | .apicBase => .wrmsrApicBase

/-! ### Two runs compared (R386) -/

/-- Two logical processors that differ at most in what R386 says no instruction reads back but through
RDMSR: IA32_SPEC_CTRL, IA32_UARCH_MISC_CTL, bits 0, 3, 4, 6 and 7 of IA32_MCU_OPT_CTRL, and the two
histories. -/
def apartInModes (lp lp' : LogicalProcessor) : Prop :=
  lp' = { lp with
    specCtrl := lp'.specCtrl
    uarchMiscCtl := lp'.uarchMiscCtl
    mcuOptCtrl := lp'.mcuOptCtrl
    events := lp'.events
    effects := lp'.effects } ∧
  ∀ n, n ∉ [0, 3, 4, 6, 7] → lp'.mcuOptCtrl.getLsbD n = lp.mcuOptCtrl.getLsbD n

end Sys2Proof.Machine
end

