-- ==== Sys2Proof/Certificates/Slice0/Obligations.lean ====
section
/-! DEFINITION. The statements for the provers, in the order of OBLIGATIONS.json. `v` is everywhere the
64-bit operand EDX:EAX of WRMSR; an equation `exec i s = .next t` whose `t` is a record update of `s`
says the instruction's result and its whole frame at once. A statement of WRMSR holds with a transaction in
progress too, where the source does not say whether WRMSR can execute: entry 39. -/

open Sys2Proof Sys2Proof.Machine

/-! ### Encoding -/

/-- R130 and R134, words written out bit by bit. That these are the bytes is general knowledge, not the
source's (entry 5). -/
def Obligations.WrittenOutWordsDecode : Prop :=
  (∀ rest : List Byte,
    decode (0x0F :: 0xA2 :: rest) = .instr .cpuid rest ∧
    decode (0x0F :: 0x32 :: rest) = .instr .rdmsr rest ∧
    decode (0x0F :: 0x30 :: rest) = .instr .wrmsr rest) ∧
  decode [0x0F, 0x00, 0xE8] = .instr (.verw ⟨3, 0, []⟩) [] ∧
  decode [0xC7, 0xF8, 0x10, 0x32, 0x54, 0x76] = .instr (.xbegin (.rel32 0x76543210)) [] ∧
  decode [0x66, 0xC7, 0xF8, 0xFE, 0xFF] = .instr (.xbegin (.rel16 0xFFFE)) [] ∧
  decode [0x0F, 0xC7, 0xF1] = .instr (.rdrand .ecx) [] ∧
  decode [0x0F, 0xC7, 0xFB] = .instr (.rdseed .ebx) [] ∧
  decode [0x0F, 0x01, 0xC8] = .instr .monitor [] ∧
  decode [0xF3, 0x0F, 0xAE, 0xF2] = .instr (.umonitor .edx) [] ∧
  decode [0xF2, 0x0F, 0xAE, 0xF0] = .instr (.umwait .eax) [] ∧
  decode [0xC3] = .instr .ret [] ∧
  decode [0xC2, 0x08, 0x00] = .instr (.retImm16 8) []

/-- Decode after encode: every well-formed instruction, every operand, whatever bytes follow. A
selector row comes back as the instruction whose bytes it shares (R133). -/
def Obligations.DecodeInvertsEncode : Prop :=
  ∀ (i : Instr) (rest : List Byte), i.wf = true → decode (encode i ++ rest) = .instr i.base rest

/-- Encode after decode: what the decoder accepts is an encoding, and of one instruction only. -/
def Obligations.EncodeInvertsDecode : Prop :=
  ∀ (bs rest : List Byte) (i : Instr), decode bs = .instr i rest →
    i.wf = true ∧ i.base = i ∧ bs = encode i ++ rest

/-- R131 (a decision of the spec, D11), with the effect-only forms of R134 admitted beside the three
(entry 5): bytes that begin with no encoding are rejected, a prefix byte before one of the three
two-byte instructions makes it none, and a step at such bytes is refused and does not fault. -/
def Obligations.OtherBytesAreRefused : Prop :=
  (∀ bs : List Byte, (∀ (i : Instr) (rest : List Byte), i.wf = true → bs ≠ encode i ++ rest) →
    ∃ why, decode bs = .rejected why) ∧
  (∀ p ∈ ([0x66, 0x67, 0xF0, 0xF2, 0xF3, 0x26, 0x2E, 0x36, 0x3E, 0x64, 0x65] : List Byte),
    ∀ i ∈ [Instr.cpuid, .rdmsr, .wrmsr], ∀ rest : List Byte,
      ∃ why, decode (p :: (encode i ++ rest)) = .rejected why) ∧
  (∀ (s : State) (why : DecodeReject), s.pending = [] → rtmMustAbort s.cur = false →
    decode (Memory.bytesAt s.code s.cur.ip maxInstrBytes) = .rejected why →
    step s = .refused (.undecoded why))

/-! ### The step -/

/-- One step runs the instruction whose bytes stand at `ip`: with no input queued, or when the queue
asks for a turn. Before it comes the abort of R374 where one is due; a queued event is applied
instead. -/
def Obligations.StepRunsDecodedInstruction : Prop :=
  (∀ (s : State) (i : Instr) (rest : List Byte), rtmMustAbort s.cur = false →
    decode (Memory.bytesAt s.code s.cur.ip maxInstrBytes) = .instr i rest →
    (s.pending = [] → step s = exec i s) ∧
    (∀ q, s.pending = .execute :: q → step s = exec i { s with pending := q })) ∧
  (∀ (s : State) (e : EnvEvent) (q : List Input), s.pending = .event e :: q →
    step s = applyEvent e { s with pending := q })

/-- R133: each selector row does what its instruction does wherever its selector holds, and is refused
elsewhere (that refusal is the model's, entry 7); the row the machine picks is one whose selector
holds. -/
def Obligations.SelectorRowsAgree : Prop :=
  (∀ (i : Instr) (s : State), rowSelects i s.cur = true → exec i s = exec i.base s) ∧
  (∀ (i : Instr) (s : State), rowSelects i s.cur = false → exec i s = .refused .rowNotSelected) ∧
  (∀ (i : Instr) (s : State), i.base = i →
    rowSelects (select i s) s.cur = true ∧ (select i s).base = i ∧ exec (select i s) s = exec i s)

/-- An instruction's encoding placed at `ip` is what the next step runs, whatever stood there and
whatever follows. -/
def Obligations.PlacedEncodingRuns : Prop :=
  ∀ (s : State) (i : Instr), i.wf = true → s.pending = [] → rtmMustAbort s.cur = false →
    let t := { s with code := Memory.writeAll s.code s.cur.ip (encode i) }
    step t = exec i.base t ∧
      ∀ a, (a < s.cur.ip ∨ s.cur.ip + (encode i).length ≤ a) →
        Memory.read t.code a = Memory.read s.code a

/-- `withFetchWord` places a row's bytes so that the next step runs it, and changes nothing outside
the longest instruction's bytes at `ip` (entries 8 and 9). -/
def Obligations.LoadedWordRuns : Prop :=
  ∀ (s : State) (nbits w : Nat) (i : Instr), nbits ≤ 64 → s.pending = [] →
    rtmMustAbort s.cur = false → decodeTableWord nbits w = some i →
    step (s.withFetchWord nbits w) = exec i (s.withFetchWord nbits w) ∧
      (s.withFetchWord nbits w) = { s with code := (s.withFetchWord nbits w).code } ∧
      ∀ a, (a < s.cur.ip ∨ s.cur.ip + maxInstrBytes ≤ a) →
        Memory.read (s.withFetchWord nbits w).code a = Memory.read s.code a

/-! ### Frames over every instruction -/

/-- R21, R22, R103, R118, R404: no instruction changes the program, the queue, or the executing logical
processor's place, configuration, privilege level, enclave flag and held lock; and of another logical
processor only MONITOR and UMONITOR change anything: with MON_UMON_MITG they may note their flush on one
nearby (the note is the model's, entry 38). -/
def Obligations.InstructionsTouchOnlyTheirProcessor : Prop :=
  ∀ (i : Instr) (s t : State), exec i s = .next t →
    (i ≠ .monitor → (∀ r, i ≠ .umonitor r) → t.others = s.others) ∧
    List.Forall₂ (fun o o' => o' = o ∨
      (archCapBit s.cur.cfg 30 = true ∧ s.cur.mcuOptCtrl.getLsbD 7 = true ∧ o.present = true ∧
        o.id ≠ s.cur.id ∧ (o.core = s.cur.core ∨ o.coreModule = s.cur.coreModule) ∧
        o' = { o with effects := o.effects ++ [.nearbyFlush s.cur.id] })) s.others t.others ∧
    t.code = s.code ∧ t.pending = s.pending ∧
      (∀ a, Memory.read t.code a = Memory.read s.code a) ∧
      t.cur.id = s.cur.id ∧ t.cur.core = s.cur.core ∧ t.cur.coreModule = s.cur.coreModule ∧
      t.cur.present = s.cur.present ∧ t.cur.cfg = s.cur.cfg ∧
      t.cur.cpl = s.cur.cpl ∧ t.cur.inEnclave = s.cur.inEnclave ∧
      t.cur.gdsLockHeld = s.cur.gdsLockHeld ∧
      t.cur.apicOther = s.cur.apicOther ∧ t.cur.start = s.cur.start ∧
      t.cur.rtmFallback = s.cur.rtmFallback

/-- Which instruction may change which field of its logical processor: MSR storage only WRMSR, and
only the MSR in ECX (IA32_APIC_BASE also the lock); EBX and ECX only CPUID, RDRAND and RDSEED, EDX also
RDMSR, EAX also XBEGIN, so WRMSR no general register (R20, R132); the transaction flag only XBEGIN; the
event history only VERW, XBEGIN and the two command registers. -/
def Obligations.InstructionFrames : Prop :=
  ∀ (i : Instr) (s t : State), exec i s = .next t →
    (i.base ≠ .wrmsr ∨ s.cur.ecx ≠ 0x48 → t.cur.specCtrl = s.cur.specCtrl) ∧
    (i.base ≠ .wrmsr ∨ s.cur.ecx ≠ 0x123 → t.cur.mcuOptCtrl = s.cur.mcuOptCtrl) ∧
    (i.base ≠ .wrmsr ∨ s.cur.ecx ≠ 0x122 → t.cur.tsxCtrl = s.cur.tsxCtrl) ∧
    (i.base ≠ .wrmsr ∨ s.cur.ecx ≠ 0x10F → t.cur.tsxForceAbort = s.cur.tsxForceAbort) ∧
    (i.base ≠ .wrmsr ∨ s.cur.ecx ≠ 0x1B01 → t.cur.uarchMiscCtl = s.cur.uarchMiscCtl) ∧
    (i.base ≠ .wrmsr ∨ s.cur.ecx ≠ 0x1B →
      t.cur.apicExtd = s.cur.apicExtd ∧ t.cur.xapicDisabled = s.cur.xapicDisabled) ∧
    ((∀ r, i ≠ .rdrand r ∧ i ≠ .rdseed r) → i.base ≠ .cpuid →
      t.cur.ebx = s.cur.ebx ∧ t.cur.ecx = s.cur.ecx ∧
      (i.base ≠ .rdmsr → t.cur.edx = s.cur.edx ∧
        ((∀ rel, i ≠ .xbegin rel) → t.cur.eax = s.cur.eax))) ∧
    ((∀ rel, i ≠ .xbegin rel) → t.cur.inRtm = s.cur.inRtm) ∧
    ((∀ op, i ≠ .verw op) → (∀ rel, i ≠ .xbegin rel) →
      i.base ≠ .wrmsr ∨ (s.cur.ecx ≠ 0x49 ∧ s.cur.ecx ≠ 0x10B) → t.cur.events = s.cur.events)

/-- R23 (decision D3): an instruction that completes advances `ip` by its length in bytes, but for
XBEGIN and RET, which transfer control; one that faults leaves it: the fault carries error code 0 and the
unchanged state, whose `ip` is the faulting instruction's address (R392, decision D23; entry 11). -/
def Obligations.InstructionPointerRule : Prop :=
  (∀ (i : Instr) (s t : State), (∀ rel, i ≠ .xbegin rel) → i ≠ .ret →
    (∀ imm, i ≠ .retImm16 imm) → exec i s = .next t →
    t.cur.ip = s.cur.ip + (encode i).length) ∧
  (∀ (i : Instr) (s : State) (f : Fault), exec i s = .fault f → f = .gp 0 s)

/-! ### CPUID -/

/-- R161 with R30 and R32: leaf 07H, subleaf 0, at any privilege level. The two TSX_CPUID_CLEAR bits
are taken together as the spec's decision D29 says. -/
def Obligations.CpuidLeaf7MainResults : Prop :=
  ∀ (s : State) (i : Instr), i = .cpuid ∨ i = .cpuidLeaf7Sub0 → s.cur.eax = 7 → s.cur.ecx = 0 →
    ∃ b d : Word,
      exec i s = .next { s with cur := { s.cur with
        eax := s.cur.cfg.c70Eax, ebx := b, ecx := s.cur.cfg.c70Ecx, edx := d,
        ip := s.cur.ip + 2 } } ∧
      (∀ n, n ≠ 11 → d.getLsbD n = s.cur.cfg.c70Edx.getLsbD n) ∧
      d.getLsbD 11 = (s.cur.cfg.c70Edx.getLsbD 11 &&
        !(s.cur.cfg.c70Edx.getLsbD 13 && s.cur.tsxForceAbort.getLsbD 2)) ∧
      (∀ n, n ≠ 4 → n ≠ 11 → b.getLsbD n = s.cur.cfg.c70Ebx.getLsbD n) ∧
      (let clear := (s.cur.cfg.c70Edx.getLsbD 29 && s.cur.cfg.archCap.getLsbD 7 &&
          s.cur.tsxCtrl.getLsbD 1) ||
        (s.cur.cfg.c70Edx.getLsbD 13 && s.cur.tsxForceAbort.getLsbD 1)
       b.getLsbD 4 = (s.cur.cfg.skuHle && !clear) ∧ b.getLsbD 11 = (s.cur.cfg.skuRtm && !clear))

/-- R162: leaf 07H, subleaf 2, where it is valid. -/
def Obligations.CpuidLeaf7SecondResults : Prop :=
  ∀ (s : State) (i : Instr), i = .cpuid ∨ i = .cpuidLeaf7Sub2 → s.cur.eax = 7 → s.cur.ecx = 2 →
    2 ≤ s.cur.cfg.maxSubleaf7 →
    exec i s = .next { s with cur := { s.cur with
      eax := s.cur.cfg.c72Eax, ebx := s.cur.cfg.c72Ebx, ecx := s.cur.cfg.c72Ecx,
      edx := s.cur.cfg.c72Edx, ip := s.cur.ip + 2 } }

/-- R163: an invalid subleaf of leaf 07H returns zeros, the comparison is unsigned over all 32 bits,
and where subleaf 2 is not valid none of its bits is enumerated. -/
def Obligations.InvalidSubleafReturnsZeros : Prop :=
  (∀ (s : State) (i : Instr), i = .cpuid ∨ i = .cpuidLeaf7Invalid → s.cur.eax = 7 →
    s.cur.cfg.maxSubleaf7 < s.cur.ecx.toNat →
    exec i s = .next { s with cur := { s.cur with
      eax := 0, ebx := 0, ecx := 0, edx := 0, ip := s.cur.ip + 2 } }) ∧
  (∀ s : State, s.cur.eax = 7 → s.cur.ecx = 0xFFFFFFFF → s.cur.cfg.maxSubleaf7 < 0xFFFFFFFF →
    exec .cpuid s = .next { s with cur := { s.cur with
      eax := 0, ebx := 0, ecx := 0, edx := 0, ip := s.cur.ip + 2 } }) ∧
  (∀ (c : Cfg) (n : Nat), c.maxSubleaf7 < 2 → c72EdxBit c n = false)

/-- R164 and R167 (decision D22): every other subleaf and leaf returns the configuration's value,
whatever function it is. -/
def Obligations.OtherLeavesReturnTheConfiguration : Prop :=
  (∀ (s : State) (i : Instr), i = .cpuid ∨ i = .cpuidLeaf7Other → s.cur.eax = 7 → s.cur.ecx ≠ 0 →
    s.cur.ecx ≠ 2 → s.cur.ecx.toNat ≤ s.cur.cfg.maxSubleaf7 →
    let o := Config.cpuidOther s.cur.cfg.cpuidOther 7 s.cur.ecx
    exec i s = .next { s with cur := { s.cur with
      eax := o.eax, ebx := o.ebx, ecx := o.ecx, edx := o.edx, ip := s.cur.ip + 2 } }) ∧
  (∀ (s : State) (i : Instr), i = .cpuid ∨ i = .cpuidOtherLeaf → s.cur.eax ≠ 7 →
    let o := Config.cpuidOther s.cur.cfg.cpuidOther s.cur.eax s.cur.ecx
    exec i s = .next { s with cur := { s.cur with
      eax := o.eax, ebx := o.ebx, ecx := o.ecx, edx := o.edx, ip := s.cur.ip + 2 } })

/-- R168, R335: CPUID does not see RTM_DISABLE, RTM_FORCE_ABORT, IA32_MCU_OPT_CTRL, IA32_SPEC_CTRL,
IA32_UARCH_MISC_CTL, the x2APIC lock or the privilege level. -/
def Obligations.CpuidIgnoresTheOtherControls : Prop :=
  ∀ (s : State) (disable force lock : Bool) (mcu spec uarch : Quad) (cpl : Fin 4),
    let lp' := { s.cur with
      tsxCtrl := setBit s.cur.tsxCtrl 0 disable
      tsxForceAbort := setBit s.cur.tsxForceAbort 0 force
      mcuOptCtrl := mcu, specCtrl := spec, uarchMiscCtl := uarch, xapicDisabled := lock, cpl := cpl }
    ∃ t t' : State, exec .cpuid s = .next t ∧ exec .cpuid { s with cur := lp' } = .next t' ∧
      t'.cur.eax = t.cur.eax ∧ t'.cur.ebx = t.cur.ebx ∧ t'.cur.ecx = t.cur.ecx ∧
      t'.cur.edx = t.cur.edx ∧ t'.cur.ip = t.cur.ip

/-! ### The checks of RDMSR and WRMSR -/

/-- The index map of R54 with R42 to R52: index, class, existence. (The index of IA32_APIC_BASE is
general knowledge, entry 3; counting ARCH_CAP as 0 without EDX[29] is R33.) -/
def Obligations.MsrIndexMap : Prop :=
  (∀ (idx : Word) (m : Msr), msrOfIndex idx = some m ↔ idx = msrIndex m) ∧
  [Msr.specCtrl, .predCmd, .xapicDisableStatus, .archCapabilities, .flushCmd, .tsxForceAbort,
      .tsxCtrl, .mcuOptCtrl, .uarchMiscCtl, .apicBase].map msrIndex =
    [72, 73, 189, 266, 267, 271, 290, 291, 6913, 27] ∧
  (∀ m : Msr, msrClass m = .writeOnly ↔ m = .predCmd ∨ m = .flushCmd) ∧
  (∀ m : Msr, msrClass m = .readOnly ↔ m = .archCapabilities ∨ m = .xapicDisableStatus) ∧
  ∀ c : Cfg,
    (msrExists .specCtrl c = true ↔
      c.c70Edx.getLsbD 26 = true ∨ c.c70Edx.getLsbD 27 = true ∨ c.c70Edx.getLsbD 31 = true ∨
        (2 ≤ c.maxSubleaf7 ∧ ∃ n ≤ 4, c.c72Edx.getLsbD n = true)) ∧
    (msrExists .predCmd c = true ↔ c.c70Edx.getLsbD 26 = true) ∧
    (msrExists .flushCmd c = true ↔ c.c70Edx.getLsbD 28 = true) ∧
    (msrExists .tsxForceAbort c = true ↔ c.c70Edx.getLsbD 13 = true) ∧
    (msrExists .archCapabilities c = true ↔ c.c70Edx.getLsbD 29 = true) ∧
    (msrExists .tsxCtrl c = true ↔ c.c70Edx.getLsbD 29 = true ∧ c.archCap.getLsbD 7 = true) ∧
    (msrExists .uarchMiscCtl c = true ↔
      c.c70Edx.getLsbD 29 = true ∧ c.archCap.getLsbD 12 = true) ∧
    (msrExists .xapicDisableStatus c = true ↔
      c.c70Edx.getLsbD 29 = true ∧ c.archCap.getLsbD 21 = true) ∧
    (msrExists .mcuOptCtrl c = true ↔
      c.c70Edx.getLsbD 9 = true ∨ c.mcuRtmBits = true ∨
        (c.c70Edx.getLsbD 29 = true ∧ ∃ n ∈ [18, 25, 29, 30], c.archCap.getLsbD n = true)) ∧
    msrExists .apicBase c = true

/-- R192 (general knowledge, D13) with R200: at CPL 1, 2 or 3 RDMSR and WRMSR fault before the index
is looked at, so that even an index outside the spec faults. -/
def Obligations.PrivilegeIsCheckedFirst : Prop :=
  ∀ (i : Instr) (s : State), i.base = .rdmsr ∨ i.base = .wrmsr → rowSelects i s.cur = true →
    s.cur.cpl ≠ 0 → exec i s = .fault (.gp 0 s)

/-- R193 (general knowledge, D14): an access to an MSR of the spec that does not exist faults. -/
def Obligations.AbsentMsrFaults : Prop :=
  ∀ (m : Msr) (s : State) (i : Instr),
    i = .rdmsr ∨ i = .wrmsr ∨ i = rdmsrRow m ∨ i = wrmsrRow m →
    s.cur.ecx = msrIndex m → msrExists m s.cur.cfg = false →
    exec i s = .fault (.gp 0 s)

/-- R194 (decision D39): at CPL 0 an index outside the spec is refused and does not fault, 79H
(WRMSR), 6E0H and 802H to 83FH among them. -/
def Obligations.OutsideIndexIsRefused : Prop :=
  (∀ (s : State) (i : Instr), i ∈ [Instr.rdmsr, .wrmsr, .rdmsrOutside, .wrmsrOutside] →
    s.cur.cpl = 0 →
    s.cur.ecx ∉ [(0x1B : Word), 0x48, 0x49, 0xBD, 0x10A, 0x10B, 0x10F, 0x122, 0x123, 0x1B01] →
    exec i s = .refused (.msrOutsideSpec s.cur.ecx)) ∧
  (∀ s : State, s.cur.cpl = 0 → s.cur.ecx = 0x79 →
    exec .wrmsrMcheck s = .refused (.msrOutsideSpec 0x79)) ∧
  (∀ idx : Word, idx = 0x79 ∨ idx = 0x6E0 ∨ (0x802 ≤ idx.toNat ∧ idx.toNat ≤ 0x83F) →
    msrOfIndex idx = none)

/-- R195, R221, R267, R272, R357 (general knowledge, D15): reading a command register and writing a
read-only one faults in every state, whatever the value, the privilege level and the
configuration. -/
def Obligations.WrongDirectionAlwaysFaults : Prop :=
  (∀ (s : State) (i : Instr), i = .rdmsr ∨ i = .rdmsrPredCmd → s.cur.ecx = 0x49 →
    exec i s = .fault (.gp 0 s)) ∧
  (∀ (s : State) (i : Instr), i = .rdmsr ∨ i = .rdmsrFlushCmd → s.cur.ecx = 0x10B →
    exec i s = .fault (.gp 0 s)) ∧
  (∀ (s : State) (i : Instr), i = .wrmsr ∨ i = .wrmsrArchCapabilities → s.cur.ecx = 0x10A →
    exec i s = .fault (.gp 0 s)) ∧
  (∀ (s : State) (i : Instr), i = .wrmsr ∨ i = .wrmsrXapicDisableStatus → s.cur.ecx = 0xBD →
    exec i s = .fault (.gp 0 s))

/-- R197 with the table of R203 (decision D16): a 1 in a position that is not in `W(idx)` faults, the
positions of fields that are not enumerated among them; the model's mask is that table. -/
def Obligations.ReservedBitsFault : Prop :=
  (∀ (m : Msr) (s : State) (n : Nat) (i : Instr), i = .wrmsr ∨ i = wrmsrRow m →
    s.cur.ecx = msrIndex m → (edxEax s.cur).getLsbD n = true →
    bitMayBeSet m s.cur.cfg n = false → exec i s = .fault (.gp 0 s)) ∧
  (∀ (m : Msr) (c : Cfg) (n : Nat), n < 64 →
    (msrReserved m c).getLsbD n = !bitMayBeSet m c n)

/-- R391: exactly the six causes. Only RDMSR and WRMSR fault; when each does is said cause by cause.
(Causes 1 to 3 are general knowledge, 4 and 5 decisions D16 and D17; D26 gives cause 5's polarity.) -/
def Obligations.FaultCausesAreExactlySix : Prop :=
  (∀ (i : Instr) (s : State), faults (exec i s) = true → i.base = .rdmsr ∨ i.base = .wrmsr) ∧
  (∀ s : State, faults (exec .rdmsr s) = true ↔
    s.cur.cpl ≠ 0 ∨
      ∃ m, s.cur.ecx = msrIndex m ∧ (msrExists m s.cur.cfg = false ∨ m = .predCmd ∨ m = .flushCmd)) ∧
  (∀ s : State, faults (exec .wrmsr s) = true ↔
    s.cur.cpl ≠ 0 ∨
      ∃ m, s.cur.ecx = msrIndex m ∧
        (msrExists m s.cur.cfg = false ∨ m = .archCapabilities ∨ m = .xapicDisableStatus ∨
          (∃ n, (edxEax s.cur).getLsbD n = true ∧ bitMayBeSet m s.cur.cfg n = false) ∨
          (m = .tsxForceAbort ∧ s.cur.cfg.illegalSetPolicy = .gp ∧
            ((edxEax s.cur).getLsbD 1 = true ∧ s.cur.tsxForceAbort.getLsbD 1 = false ∧
                s.cur.cfg.c70Edx.getLsbD 11 = false ∧ s.cur.tsxForceAbort.getLsbD 2 = false ∨
              (edxEax s.cur).getLsbD 2 = true ∧ s.cur.tsxForceAbort.getLsbD 2 = false ∧
                s.cur.cfg.c70Edx.getLsbD 11 = !s.cur.cfg.sdvSetRequiresEdx11)) ∨
          (m = .apicBase ∧ msrExists .xapicDisableStatus s.cur.cfg = true ∧
            s.cur.xapicDisabled = true ∧ (edxEax s.cur).getLsbD 10 = false ∧
            ∀ n, n ≠ 10 → (edxEax s.cur).getLsbD n = s.cur.apicOther.getLsbD n)))

/-! ### RDMSR -/

/-- R190 with R220, R250, R320, R350, R358 and R359: what RDMSR leaves in EDX:EAX for the registers
that are read as they are stored, and that nothing else changes. That the bits of IA32_APIC_BASE other
than EXTD are the ones held is the model's (entries 3 and 28). -/
def Obligations.RdmsrReturnsTheStoredValue : Prop :=
  ∀ (s : State) (m : Msr) (i : Instr), i = .rdmsr ∨ i = rdmsrRow m → s.cur.ecx = msrIndex m →
    s.cur.cpl = 0 → msrExists m s.cur.cfg = true → m ≠ .predCmd → m ≠ .flushCmd →
    ∃ v : Quad,
      exec i s = .next { s with cur := { s.cur with
        eax := v.extractLsb' 0 32, edx := v.extractLsb' 32 32, ip := s.cur.ip + 2 } } ∧
      (m = .archCapabilities → v = s.cur.cfg.archCap) ∧
      (m = .specCtrl → v = s.cur.specCtrl) ∧
      (m = .tsxCtrl → v = s.cur.tsxCtrl &&& 3) ∧
      (m = .uarchMiscCtl → v = s.cur.uarchMiscCtl &&& 1) ∧
      (m = .xapicDisableStatus → v = if s.cur.xapicDisabled then 1 else 0) ∧
      (m = .apicBase → v.getLsbD 10 = s.cur.apicExtd ∧
        ∀ n, n ≠ 10 → v.getLsbD n = s.cur.apicOther.getLsbD n) ∧
      (m = .mcuOptCtrl → ∀ n, v.getLsbD n =
        (mcuBitEnumerated s.cur.cfg n && s.cur.mcuOptCtrl.getLsbD n)) ∧
      (m = .tsxForceAbort →
        v.getLsbD 0 = (if s.cur.cfg.c70Edx.getLsbD 11 && !s.cur.tsxForceAbort.getLsbD 2 then true
          else s.cur.tsxForceAbort.getLsbD 0) ∧
        ∀ n, n ≠ 0 → v.getLsbD n = s.cur.tsxForceAbort.getLsbD n)

/-- R108: a read changes no state, and reading again gives the same value. -/
def Obligations.ReadingTwiceGivesTheSame : Prop :=
  ∀ s t : State, exec .rdmsr s = .next t →
    exec .rdmsr t = .next { t with cur := { t.cur with ip := t.cur.ip + 2 } }

/-- R204 with R198, for a logical processor that meets the invariant: RDMSR then WRMSR of what was
read completes and leaves every MSR as it was. -/
def Obligations.WritingBackChangesNothing : Prop :=
  ∀ (s t : State) (m : Msr), lpOk s.cur = true → s.cur.ecx = msrIndex m →
    msrClass m = .readWrite → exec .rdmsr s = .next t →
    exec .wrmsr t = .next { s with cur := { s.cur with
      eax := t.cur.eax, edx := t.cur.edx, ip := s.cur.ip + 4 } }

/-! ### WRMSR -/

/-- R251, R321 and R351: IA32_SPEC_CTRL, IA32_TSX_CTRL and IA32_UARCH_MISC_CTL take the value as it
is. -/
def Obligations.PlainRegistersTakeTheValue : Prop :=
  (∀ (s : State) (i : Instr), i = .wrmsr ∨ i = .wrmsrSpecCtrl → s.cur.cpl = 0 →
    s.cur.ecx = 0x48 → msrExists .specCtrl s.cur.cfg = true →
    (∀ n, (edxEax s.cur).getLsbD n = true → specCtrlBitEnumerated s.cur.cfg n = true) →
    exec i s = .next { s with cur := { s.cur with
      specCtrl := s.cur.edx ++ s.cur.eax, ip := s.cur.ip + 2 } }) ∧
  (∀ (s : State) (i : Instr), i = .wrmsr ∨ i = .wrmsrTsxCtrl → s.cur.cpl = 0 →
    s.cur.ecx = 0x122 → msrExists .tsxCtrl s.cur.cfg = true → s.cur.edx = 0 →
    s.cur.eax.toNat ≤ 3 →
    exec i s = .next { s with cur := { s.cur with
      tsxCtrl := s.cur.edx ++ s.cur.eax, ip := s.cur.ip + 2 } }) ∧
  (∀ (s : State) (i : Instr), i = .wrmsr ∨ i = .wrmsrUarchMiscCtl → s.cur.cpl = 0 →
    s.cur.ecx = 0x1B01 → msrExists .uarchMiscCtl s.cur.cfg = true → s.cur.edx = 0 →
    s.cur.eax.toNat ≤ 1 →
    exec i s = .next { s with cur := { s.cur with
      uarchMiscCtl := s.cur.edx ++ s.cur.eax, ip := s.cur.ip + 2 } })

/-- R265 and R270: the command registers store nothing; a 1 appends one record, a 0 nothing (decision
D24). -/
def Obligations.CommandsAppendOneRecord : Prop :=
  (∀ (s : State) (i : Instr), i = .wrmsr ∨ i = .wrmsrPredCmd → s.cur.cpl = 0 →
    s.cur.ecx = 0x49 → s.cur.cfg.c70Edx.getLsbD 26 = true → s.cur.edx = 0 →
    (s.cur.eax = 1 → exec i s = .next { s with cur := { s.cur with
      events := s.cur.events ++ [.ibpb], ip := s.cur.ip + 2 } }) ∧
    (s.cur.eax = 0 → exec i s = .next { s with cur := { s.cur with ip := s.cur.ip + 2 } })) ∧
  (∀ (s : State) (i : Instr), i = .wrmsr ∨ i = .wrmsrFlushCmd → s.cur.cpl = 0 →
    s.cur.ecx = 0x10B → s.cur.cfg.c70Edx.getLsbD 28 = true → s.cur.edx = 0 →
    (s.cur.eax = 1 → exec i s = .next { s with cur := { s.cur with
      events := s.cur.events ++ [.l1dFlush (l1dFlushClearsFb s.cur.cfg)], ip := s.cur.ip + 2 } }) ∧
    (s.cur.eax = 0 → exec i s = .next { s with cur := { s.cur with ip := s.cur.ip + 2 } }))

/-- R273: the record of L1D_FLUSH says the fill buffers were cleared exactly where the configuration
says so and FB_CLEAR is not enumerated, whatever FB_CLEAR_DIS and the rest of IA32_MCU_OPT_CTRL
hold. (That the WRMSR completes with a transaction in progress too is the model's, entry 39.) -/
def Obligations.L1dFlushIgnoresFbClearDis : Prop :=
  ∀ (s : State) (mcu : Quad), s.cur.cpl = 0 → s.cur.ecx = 0x10B →
    s.cur.cfg.c70Edx.getLsbD 28 = true → s.cur.edx = 0 → s.cur.eax = 1 →
    ∃ t : State, exec .wrmsrFlushCmd { s with cur := { s.cur with mcuOptCtrl := mcu } } = .next t ∧
      t.cur.events = s.cur.events ++ [.l1dFlush (s.cur.cfg.l1dFlushClearsFb &&
        !(s.cur.cfg.c70Edx.getLsbD 29 && s.cur.cfg.archCap.getLsbD 17))]

/-- R291, bit by bit, with R198 and R300 (decisions D18 and D32): the locked and read-only fields
ignore the write, the others take it. -/
def Obligations.McuOptCtrlAfterWrite : Prop :=
  ∀ (s : State) (i : Instr), i = .wrmsr ∨ i = .wrmsrMcuOptCtrl → s.cur.cpl = 0 →
    s.cur.ecx = 0x123 → msrExists .mcuOptCtrl s.cur.cfg = true →
    (∀ n, (edxEax s.cur).getLsbD n = true → mcuBitEnumerated s.cur.cfg n = true) →
    ∃ new : Quad,
      exec i s = .next { s with cur := { s.cur with mcuOptCtrl := new, ip := s.cur.ip + 2 } } ∧
      (let v := edxEax s.cur
       let old := s.cur.mcuOptCtrl
       let lock := old.getLsbD 5 || (s.cur.cfg.gdsLockRw && v.getLsbD 5)
       ∀ n, new.getLsbD n =
        if mcuBitEnumerated s.cur.cfg n = false then old.getLsbD n
        else if n = 1 then (if old.getLsbD 2 then old.getLsbD 1 else v.getLsbD 1)
        else if n = 2 then old.getLsbD 2
        else if n = 4 then !lock && v.getLsbD 4
        else if n = 5 then lock
        else v.getLsbD n)

/-- R333 (decisions D17, D26, D27): the conditions are judged on the state before the write; bit 0 is
ignored where it reads as 1; a bit that may not be set makes the write fault, or is dropped, as the
policy says. -/
def Obligations.TsxForceAbortAfterWrite : Prop :=
  ∀ (s : State) (i : Instr), i = .wrmsr ∨ i = .wrmsrTsxForceAbort → s.cur.cpl = 0 →
    s.cur.ecx = 0x10F → s.cur.cfg.c70Edx.getLsbD 13 = true → s.cur.edx = 0 →
    s.cur.eax.toNat ≤ 7 →
    let v := edxEax s.cur
    let old := s.cur.tsxForceAbort
    let edx11 := s.cur.cfg.c70Edx.getLsbD 11 && !old.getLsbD 2
    let bad1 := v.getLsbD 1 && !old.getLsbD 1 && !(edx11 || old.getLsbD 2)
    let bad2 := v.getLsbD 2 && !old.getLsbD 2 &&
      !(if s.cur.cfg.sdvSetRequiresEdx11 then edx11 else !edx11)
    ((bad1 || bad2) = true → s.cur.cfg.illegalSetPolicy = .gp →
      exec i s = .fault (.gp 0 s)) ∧
    ((bad1 || bad2) = false ∨ s.cur.cfg.illegalSetPolicy = .ignore →
      ∃ new : BitVec 3,
        exec i s = .next { s with cur := { s.cur with tsxForceAbort := new, ip := s.cur.ip + 2 } } ∧
        new.getLsbD 0 = (if edx11 then old.getLsbD 0 else v.getLsbD 0) ∧
        new.getLsbD 1 = (v.getLsbD 1 && !bad1) ∧
        new.getLsbD 2 = (v.getLsbD 2 && !bad2))

/-- R359 and R361 (the index and EXTD's place are general knowledge, decisions D34 and D35; entry 3):
a write that keeps the other fields sets EXTD, and going from 0 to 1 may set the lock; one that changes
another field is refused. A lock that is not enumerated reads 0 and forbids nothing (entry 41). -/
def Obligations.ApicBaseAfterWrite : Prop :=
  ∀ (s : State) (i : Instr), i = .wrmsr ∨ i = .wrmsrApicBase → s.cur.cpl = 0 →
    s.cur.ecx = 0x1B →
    ((∀ n, n ≠ 10 → (edxEax s.cur).getLsbD n = s.cur.apicOther.getLsbD n) →
      s.cur.xapicDisabled = false ∨ msrExists .xapicDisableStatus s.cur.cfg = false ∨
        (edxEax s.cur).getLsbD 10 = true →
      exec i s = .next { s with cur := { s.cur with
        apicExtd := (edxEax s.cur).getLsbD 10
        xapicDisabled := s.cur.xapicDisabled ||
          (!s.cur.apicExtd && (edxEax s.cur).getLsbD 10 &&
            msrExists .xapicDisableStatus s.cur.cfg && s.cur.cfg.xapicLockOnExtd)
        ip := s.cur.ip + 2 } }) ∧
    ((∃ n, n ≠ 10 ∧ (edxEax s.cur).getLsbD n ≠ s.cur.apicOther.getLsbD n) →
      exec i s = .refused .apicBaseOtherFields)

/-- R360: while LEGACY_XAPIC_DISABLED is set (and enumerated, entry 41), EXTD is 1 and a write of
IA32_APIC_BASE that would clear it (and changes no other field, R359) faults, whatever the policy of
R199. -/
def Obligations.LockedExtdCannotBeCleared : Prop :=
  (∀ (s : State) (i : Instr) (p : IllegalSetPolicy), i = .wrmsr ∨ i = .wrmsrApicBase →
    s.cur.ecx = 0x1B → msrExists .xapicDisableStatus s.cur.cfg = true →
    s.cur.xapicDisabled = true → s.cur.cfg.illegalSetPolicy = p →
    (edxEax s.cur).getLsbD 10 = false →
    (∀ n, n ≠ 10 → (edxEax s.cur).getLsbD n = s.cur.apicOther.getLsbD n) →
    exec i s = .fault (.gp 0 s)) ∧
  (∀ lp : LogicalProcessor, lpOk lp = true → msrExists .xapicDisableStatus lp.cfg = true →
    lp.xapicDisabled = true → lp.apicExtd = true)

/-- R262: each logical processor has its own IA32_SPEC_CTRL. What it writes it reads back exactly, a
sibling's copy is not touched, and a mode may be in force through a sibling's setting. -/
def Obligations.SpecCtrlIsPerLogicalProcessor : Prop :=
  (∀ s t : State, exec .wrmsrSpecCtrl s = .next t →
    t.others = s.others ∧
    ∃ u : State, exec .rdmsrSpecCtrl t = .next u ∧ u.others = s.others ∧
      u.cur.eax = s.cur.eax ∧ u.cur.edx = s.cur.edx) ∧
  (∀ (n : Nat) (s : State) (lp : LogicalProcessor),
    specCtrlMayBeInForce n s lp = true ↔
      specCtrlOn n lp = true ∨
        ∃ t ∈ s.lps, t.core = lp.core ∧ t.id ≠ lp.id ∧ specCtrlOn n t = true)

/-- R295: no instruction changes RTM_LOCKED; while it is 1, RTM_ALLOW is 0, a write to it is ignored
and the write completes; its value comes from reset and from the platform's lock, which holds
RTM_ALLOW at zero. (The source does not name the platform action: that it is an input which sets
RTM_LOCKED and clears RTM_ALLOW, the last clause, is the model's choice, entry 25.) -/
def Obligations.RtmLockedHoldsRtmAllowAtZero : Prop :=
  (∀ (i : Instr) (s t : State), exec i s = .next t →
    t.cur.mcuOptCtrl.getLsbD 2 = s.cur.mcuOptCtrl.getLsbD 2) ∧
  (∀ lp : LogicalProcessor, lpOk lp = true → lp.mcuOptCtrl.getLsbD 2 = true →
    lp.mcuOptCtrl.getLsbD 1 = false) ∧
  (∀ s : State, lpOk s.cur = true → s.cur.cpl = 0 → s.cur.ecx = 0x123 →
    s.cur.cfg.mcuRtmBits = true → s.cur.mcuOptCtrl.getLsbD 2 = true →
    (∀ n, (edxEax s.cur).getLsbD n = true → mcuBitEnumerated s.cur.cfg n = true) →
    ∃ t : State, exec .wrmsrMcuOptCtrl s = .next t ∧ t.cur.mcuOptCtrl.getLsbD 1 = false) ∧
  (∀ (s t : State) (a : CfgAssignment), applyEvent (.reset a) s = .next t → ∀ lp ∈ t.threads,
    lp.mcuOptCtrl.getLsbD 2 = (lp.cfg.mcuRtmBits && lp.cfg.resetRtmLocked)) ∧
  (∀ lp : LogicalProcessor, lp.cfg.mcuRtmBits = true →
    lp.lockRtm.mcuOptCtrl.getLsbD 2 = true ∧ lp.lockRtm.mcuOptCtrl.getLsbD 1 = false)

/-- `43_spec_ctrl_pred_flush.md` section 1 (R252 to R261; RRSBA's bound, R257, is the spec's own
inference): the predicates of the IA32_SPEC_CTRL modes, and what lets each be set. The current privilege
level picks the _U or the _S bit. With them the predicates of the other files: which definition of
IA32_TSX_FORCE_ABORT applies (R50), when counter 3 is usable (R341), DOITM (R352), and the two that speak
of a core, STIBP's protection (R253) and the GDS mitigation (R298). -/
def Obligations.SpecCtrlModes : Prop :=
  (∀ lp : LogicalProcessor,
    (ipredDis lp = true ↔
      (lp.cpl = 3 ∧ lp.specCtrl.getLsbD 3 = true) ∨ (lp.cpl < 3 ∧ lp.specCtrl.getLsbD 4 = true)) ∧
    (bitMayBeSet .specCtrl lp.cfg 3 = c72EdxBit lp.cfg 1 ∧
      bitMayBeSet .specCtrl lp.cfg 4 = c72EdxBit lp.cfg 1) ∧
    (rrsbaActive lp = true ↔
      archCapBit lp.cfg 19 = true ∧
        ¬((lp.cpl = 3 ∧ lp.specCtrl.getLsbD 5 = true) ∨
          (lp.cpl < 3 ∧ lp.specCtrl.getLsbD 6 = true))) ∧
    ibrsOn lp = (msrExists .specCtrl lp.cfg && lp.specCtrl.getLsbD 0) ∧
    stibpOn lp = (msrExists .specCtrl lp.cfg && lp.specCtrl.getLsbD 1) ∧
    ssbdOn lp = (msrExists .specCtrl lp.cfg && lp.specCtrl.getLsbD 2) ∧
    psfdOn lp = (msrExists .specCtrl lp.cfg && lp.specCtrl.getLsbD 7) ∧
    ddpdOn lp = (msrExists .specCtrl lp.cfg && lp.specCtrl.getLsbD 8) ∧
    bhiDisS lp = (msrExists .specCtrl lp.cfg && lp.specCtrl.getLsbD 10) ∧
    (tfaUpdated lp = true ↔ lp.cfg.c70Edx.getLsbD 13 = true ∧
      (lp.cfg.c70Edx.getLsbD 11 = true ∨ lp.tsxForceAbort.getLsbD 2 = true)) ∧
    (pmc3Usable lp = true ↔ lp.cfg.c70Edx.getLsbD 13 = true ∧
      lp.tsxForceAbort.getLsbD 2 = false ∧
      (lp.cfg.c70Edx.getLsbD 11 = true ∨ lp.tsxForceAbort.getLsbD 0 = true)) ∧
    (doitmOn lp = true ↔
      msrExists .uarchMiscCtl lp.cfg = true ∧ lp.uarchMiscCtl.getLsbD 0 = true)) ∧
  (∀ (s : State) (c : Nat),
    (stibpProtectsCore s c = true ↔
      ∃ t ∈ s.lps, t.core = c ∧ msrExists .specCtrl t.cfg = true ∧ t.specCtrl.getLsbD 1 = true) ∧
    (gdsMitigationDisabled s c = true ↔
      ∀ t ∈ s.lps, t.core = c → t.mcuOptCtrl.getLsbD 4 = true))

/-! ### The effect-only instructions -/

/-- R370: VERW appends a record exactly where MD_CLEAR, FB_CLEAR (without FB_CLEAR_DIS) or RFDS_CLEAR
says so, with the two bits of the rule, and changes nothing else the spec has. (That it completes for
every operand and advances `ip` by its length, and that no flag or exception of it is in the machine, is
the model's: entry 19; its encoding and so its length are general knowledge, entry 6.) -/
def Obligations.VerwAppendsItsRecord : Prop :=
  ∀ (s : State) (op : RmOperand),
    let c := s.cur.cfg
    let ac := fun n => c.c70Edx.getLsbD 29 && c.archCap.getLsbD n
    let md := c.c70Edx.getLsbD 10
    let fb := ac 17 && !(ac 18 && s.cur.mcuOptCtrl.getLsbD 3)
    let rfds := ac 28
    exec (.verw op) s = .next { s with cur := { s.cur with
      events := s.cur.events ++ (if md || fb || rfds then [.mdClear fb rfds] else [])
      ip := s.cur.ip + 3 + op.tail.length } }

/-- R372 with R373 and R375: where one of the four causes holds, XBEGIN aborts: it records the first
that holds, in the order the rule writes them (corner case g allows any; the first is the model's, entry
40), leaves the transaction, goes on at its fallback address (entry 16), and EAX is 0 unless the sibling in
an enclave is the only cause. Where none holds the spec has no rule for XBEGIN, and the step is refused
(`93` row 21, entry 17). (That SKU_RTM = 0 changes none of this is the model's, entry 40.) The second
clause says when a sibling in an enclave is a cause (R227, R375; that the logical processor's own
configuration decides is entry 24). -/
def Obligations.XbeginAbortsExactlyWhenForced : Prop :=
  (∀ (s : State) (rel : RelOperand),
    let disable := archCapBit s.cur.cfg 7 && s.cur.tsxCtrl.getLsbD 0
    let notAllowed := s.cur.cfg.mcuRtmBits && !s.cur.mcuOptCtrl.getLsbD 1
    let force := forceAbortRtm s.cur
    ((disable || notAllowed || force || siblingInEnclaveBlocksTsx s s.cur) = false →
      exec (.xbegin rel) s = .refused .xbeginNotForced) ∧
    ((disable || notAllowed || force || siblingInEnclaveBlocksTsx s s.cur) = true →
    ∃ (cause : AbortCause) (code : Word) (draws : Nat),
      exec (.xbegin rel) s = .next { s with
        draws := draws
        cur := { s.cur with
          eax := code, inRtm := false, events := s.cur.events ++ [.rtmAbort cause],
          ip := fallbackAddress s.cur.ip rel } } ∧
      cause = (if disable then .rtmDisable else if notAllowed then .rtmAllow0
        else if force then .forceAbort else .siblingEnclave) ∧
      ((disable || notAllowed || force) = true → code = 0 ∧ draws = s.draws))) ∧
  (∀ (s : State) (lp : LogicalProcessor), siblingInEnclaveBlocksTsx s lp = true ↔
    (lp.cfg.c70Edx.getLsbD 29 = true ∧ lp.cfg.archCap.getLsbD 7 = true) ∧
      ¬(lp.cfg.c70Edx.getLsbD 29 = true ∧ lp.cfg.archCap.getLsbD 8 = true) ∧
      lp.cfg.hyperthreading = true ∧
      ∃ t ∈ s.threads, t.present = true ∧ t.core = lp.core ∧ t.id ≠ lp.id ∧ t.inEnclave = true)

/-- R322: RTM_DISABLE is bit 0 of IA32_TSX_CTRL where that exists. With it set XBEGIN always aborts,
with EAX code 0; with it clear this bit forces nothing. (That this holds where SKU_RTM = 0 too, and that the
record names this cause where R372 (g) allows any that holds, is the model's, entry 40.) -/
def Obligations.RtmDisableAbortsXbegin : Prop :=
  (∀ lp : LogicalProcessor,
    rtmDisable lp = true ↔ msrExists .tsxCtrl lp.cfg = true ∧ lp.tsxCtrl.getLsbD 0 = true) ∧
  (∀ (s : State) (rel : RelOperand), msrExists .tsxCtrl s.cur.cfg = true →
    s.cur.tsxCtrl.getLsbD 0 = true →
    ∃ t : State, exec (.xbegin rel) s = .next t ∧ t.cur.eax = 0 ∧ t.cur.inRtm = false ∧
      t.cur.events = s.cur.events ++ [.rtmAbort .rtmDisable]) ∧
  (∀ s : State, s.cur.tsxCtrl.getLsbD 0 = false → xbeginCause s ≠ some .rtmDisable)

/-- R335: FORCE_ABORT_RTM mode is bit 0 as RDMSR returns it. In it every XBEGIN and every transaction in
progress aborts; where CPUID reports EDX[11] = 1 it is on and no instruction turns it off but by setting
SDV_ENABLE_RTM; it does not show in the EBX bits of CPUID. (That a transaction in progress aborts in one
step of its own, whatever bytes stand at `ip`, is the model's reading of R374: entry 21; that XBEGIN aborts
where SKU_RTM = 0 too is the model's: entry 40.) -/
def Obligations.ForceAbortModeRule : Prop :=
  (∀ lp : LogicalProcessor, forceAbortRtm lp = true ↔
    msrExists .tsxForceAbort lp.cfg = true ∧ (tfaReadValue lp).getLsbD 0 = true) ∧
  (∀ (s : State) (rel : RelOperand), forceAbortRtm s.cur = true →
    ∃ t : State, exec (.xbegin rel) s = .next t ∧ t.cur.eax = 0 ∧ t.cur.inRtm = false) ∧
  (∀ s : State, forceAbortRtm s.cur = true → s.cur.inRtm = true → s.pending = [] →
    ∃ t : State, step s = .next t ∧ t.cur.inRtm = false) ∧
  (∀ lp : LogicalProcessor, cfgWf lp.cfg = true → (c70Edx lp).getLsbD 11 = true →
    forceAbortRtm lp = true) ∧
  (∀ (i : Instr) (s t : State), cfgWf s.cur.cfg = true → (c70Edx s.cur).getLsbD 11 = true →
    exec i s = .next t → forceAbortRtm t.cur = true ∨ t.cur.tsxForceAbort.getLsbD 2 = true) ∧
  (∀ (lp : LogicalProcessor) (b : Bool),
    c70Ebx { lp with tsxForceAbort := setBit lp.tsxForceAbort 0 b } = c70Ebx lp)

/-- R374 with R373: a transaction in progress in FORCE_ABORT_RTM mode aborts before the next
instruction, with EAX 0, at its fallback address; the other causes do not reach a transaction in
progress. (That the abort is a step of its own, and that an input that stands for instructions, ends or
begins a transaction or replaces the configuration takes it first, by `takeDueAbort`, is the model's,
entry 21.) -/
def Obligations.TransactionInProgressAborts : Prop :=
  (∀ s : State, s.cur.inRtm = true → forceAbortRtm s.cur = true →
    (s.pending = [] → step s = .next { s with cur := { s.cur with
      eax := 0, inRtm := false, events := s.cur.events ++ [.rtmAbort .forceAbort],
      ip := s.cur.rtmFallback } }) ∧
    (∀ q, s.pending = .execute :: q → step s = .next { s with
      pending := q
      cur := { s.cur with
        eax := 0, inRtm := false, events := s.cur.events ++ [.rtmAbort .forceAbort],
        ip := s.cur.rtmFallback } })) ∧
  (∀ s : State, s.pending = [] → forceAbortRtm s.cur = false → step s = runInstr s) ∧
  (∀ lp : LogicalProcessor,
    (lp.inRtm = true → forceAbortRtm lp = true → lp.takeDueAbort = { lp with
      eax := 0, inRtm := false, events := lp.events ++ [.rtmAbort .forceAbort],
      ip := lp.rtmFallback }) ∧
    (lp.inRtm = false ∨ forceAbortRtm lp = false → lp.takeDueAbort = lp))

/-- R377 with R293: RDRAND and RDSEED complete with a value nothing constrains (entry 14) in the
register they name, in none of the four where they name another, and with the note whether the
mitigation was on (entry 13). -/
def Obligations.RandomInstructionsComplete : Prop :=
  ∀ (s : State) (r : RegField),
    ∃ v : Word,
      let note := if s.cur.cfg.c70Edx.getLsbD 9 then
          some (s.cur.inEnclave || !s.cur.mcuOptCtrl.getLsbD 0) else none
      let after := fun seed : Bool =>
        ({ s with
            draws := s.draws + 1
            cur := { s.cur with
              eax := if r = .eax then v else s.cur.eax
              ebx := if r = .ebx then v else s.cur.ebx
              ecx := if r = .ecx then v else s.cur.ecx
              edx := if r = .edx then v else s.cur.edx
              effects := s.cur.effects ++ [.random seed note]
              ip := s.cur.ip + 3 } } : State)
      exec (.rdrand r) s = .next (after false) ∧ exec (.rdseed r) s = .next (after true)

/-- R378 and R379: MONITOR, UMONITOR and UMWAIT complete. MONITOR and UMONITOR note the flush of
MON_UMON_MITG on their own logical processor and, free for each, on those of the same core or module;
UMONITOR notes that it may set up a monitor exactly where IGN_UMONITOR does not stop it; whether UMWAIT
enters its optimized state is free. (The notes are the model's, entries 13, 19 and 38.) -/
def Obligations.MonitorInstructionsComplete : Prop :=
  ∀ (s : State) (r : RegField),
    let c := s.cur.cfg
    let mitg := c.c70Edx.getLsbD 29 && c.archCap.getLsbD 30 && s.cur.mcuOptCtrl.getLsbD 7
    let flush := if mitg then [Effect.monitorFlush] else []
    let ignored := c.c70Edx.getLsbD 29 && c.archCap.getLsbD 29 && s.cur.mcuOptCtrl.getLsbD 6
    (∃ (others : List LogicalProcessor) (draws : Nat),
      (mitg = false → others = s.others ∧ draws = s.draws) ∧
      List.Forall₂ (fun o o' => o' = o ∨
        (o.present = true ∧ o.id ≠ s.cur.id ∧
          (o.core = s.cur.core ∨ o.coreModule = s.cur.coreModule) ∧
          o' = { o with effects := o.effects ++ [.nearbyFlush s.cur.id] })) s.others others ∧
      exec .monitor s = .next { s with
        draws := draws
        others := others
        cur := { s.cur with effects := s.cur.effects ++ flush, ip := s.cur.ip + 3 } } ∧
      exec (.umonitor r) s = .next { s with
        draws := draws
        others := others
        cur := { s.cur with
          effects := s.cur.effects ++ flush ++ [.umonitor (!ignored)], ip := s.cur.ip + 4 } }) ∧
    ∃ entered : Bool, exec (.umwait r) s = .next { s with
      draws := s.draws + 1
      cur := { s.cur with
        effects := s.cur.effects ++ [.umwait entered], ip := s.cur.ip + 4 } }

/-- R380: both forms of RET complete and change no value but `ip`, whose target nothing constrains
(entry 15); RSBA, RRSBA and PBRSB_NO show in the note only (entry 13). One target serves for every
configuration and every value of the control MSRs: none of their bits changes it. -/
def Obligations.RetCompletes : Prop :=
  ∀ (s : State) (imm : BitVec 16),
    ∃ target : Nat, ∀ (c : Cfg) (spec mcu tsx uarch : Quad) (tfa : BitVec 3) (lock extd : Bool),
      let lp := { s.cur with
        cfg := c, specCtrl := spec, mcuOptCtrl := mcu, tsxCtrl := tsx, tsxForceAbort := tfa,
        uarchMiscCtl := uarch, xapicDisabled := lock, apicExtd := extd }
      let after : State := { s with
        draws := s.draws + 1
        cur := { lp with
          effects := lp.effects ++ [.ret (archCapBit c 2) (rrsbaActive lp) (archCapBit c 24)]
          ip := target } }
      exec .ret { s with cur := lp } = .next after ∧
        exec (.retImm16 imm) { s with cur := lp } = .next after

/-! ### The events of the environment -/

/-- R420 with R423 and R427 (decisions D25 and D36): every logical processor, field by field; the package
then has the cores and threads the configurations say (R22; which logical processors those are is the
model's, entry 27). These are the stored values of R420's assignments: IA32_MCU_OPT_CTRL is stored with 0
where a field is not enumerated; IA32_TSX_CTRL, IA32_TSX_FORCE_ABORT, LEGACY_XAPIC_DISABLED and with it EXTD
are stored as assigned whatever is enumerated, and read 0 where they are not (entry 41). -/
def Obligations.ResetEventSetsEveryField : Prop :=
  ∀ (s : State) (a : CfgAssignment), s.accepts a = true →
    ∃ t : State, applyEvent (.reset a) s = .next t ∧ t.topologyOk = true ∧
      t.code = s.code ∧ t.pending = s.pending ∧ t.draws = s.draws ∧
      List.Forall₂ (fun lp lp' =>
        let c := a.forLp lp.id
        lp'.id = lp.id ∧ lp'.core = lp.core ∧ lp'.coreModule = lp.coreModule ∧
        lp'.present = s.placed a lp ∧ lp'.cfg = c ∧ lp'.start = lp.start ∧
        lp'.gdsLockHeld = false ∧
        lp'.eax = lp.start.eax ∧ lp'.ebx = lp.start.ebx ∧ lp'.ecx = lp.start.ecx ∧
        lp'.edx = lp.start.edx ∧ lp'.cpl = lp.start.cpl ∧ lp'.ip = lp.start.ip ∧
        lp'.inEnclave = false ∧ lp'.inRtm = false ∧ lp'.rtmFallback = 0 ∧ lp'.events = [] ∧
        lp'.effects = [] ∧ lp'.specCtrl = 0 ∧ lp'.uarchMiscCtl = 0 ∧
        (∀ n, lp'.mcuOptCtrl.getLsbD n =
          match n with
          | 1 => c.mcuRtmBits && c.resetRtmAllow && !c.resetRtmLocked
          | 2 => c.mcuRtmBits && c.resetRtmLocked
          | 3 => archCapBit c 18 && c.resetFbClearDis
          | 5 => archCapBit c 25 && c.gdsLockAtMcuLoad
          | 6 => archCapBit c 29
          | _ => false) ∧
        (∀ n, lp'.tsxCtrl.getLsbD n = c.resetTsxCtrl.getLsbD n) ∧
        (∀ n, lp'.tsxForceAbort.getLsbD n = (decide (n = 0) && c.resetTfaBit0)) ∧
        lp'.xapicDisabled = c.resetXapicLocked ∧
        lp'.apicExtd = (lp.start.apicExtd || c.resetXapicLocked) ∧
        lp'.apicOther = lp.start.apicOther) s.threads t.threads

/-- R263 and R353: IA32_SPEC_CTRL and IA32_UARCH_MISC_CTL are 0 after reset, on every logical
processor, and INIT# and SIPI# leave IA32_SPEC_CTRL as it is. -/
def Obligations.ResetClearsSpecCtrl : Prop :=
  (∀ (s t : State) (a : CfgAssignment), applyEvent (.reset a) s = .next t →
    t.threads.length = s.threads.length ∧
      ∀ lp ∈ t.threads, lp.specCtrl = 0 ∧ lp.uarchMiscCtl = 0) ∧
  (∀ (s : State) (n : Nat) (e : EnvEvent), s.hasLp n = true → e = .init n ∨ e = .sipi n →
    ∃ t : State, applyEvent e s = .next t ∧
      t.threads.map (fun lp => lp.specCtrl) = s.threads.map (fun lp => lp.specCtrl)) ∧
  (∀ lp ∈ State.reset.threads, lp.specCtrl = 0 ∧ lp.uarchMiscCtl = 0)

/-- The state the host starts from is what the Reset event with the configuration cfgA makes of it (the
choice of cfgA, of the start values and of two logical processors is the model's, entries 1 to 4), and
it is the state `95_test_vectors.md` prints. -/
def Obligations.ResetStateIsResetOfCfgA : Prop :=
  applyEvent (.reset ⟨Cfg.a, []⟩) State.reset = .next State.reset ∧
  State.reset.lps = State.reset.threads ∧
  ∀ lp ∈ State.reset.lps,
    lp.cfg = Cfg.a ∧ lp.specCtrl = 0 ∧ lp.uarchMiscCtl = 0 ∧ lp.mcuOptCtrl = 0x42 ∧
      lp.tsxCtrl = 0 ∧ lp.tsxForceAbort = 0 ∧ tfaReadValue lp = 1 ∧ lp.xapicDisabled = false ∧
      lp.inEnclave = false ∧ lp.inRtm = false ∧ lp.events = []

/-- R426 and R427 (decision D36; entry 22): a microcode load, field by field, on every logical processor,
after the abort R374 makes due (entry 21): kept where enumerated before and after, the reset value where
newly enumerated, 0 where no longer enumerated, and left as stored where enumerated neither before nor
after (entry 22). GDS_MITG_LOCK that was set and is no longer enumerated reads 0, is held, and is 1 again
where it is enumerated again (R299, R305 e; entry 22). EXTD changes only where the lock comes out set. The
package then has the cores and threads the configurations say (R22; entry 27). -/
def Obligations.MicrocodeLoadKeepsEnumeratedFields : Prop :=
  ∀ (s : State) (a : CfgAssignment), s.accepts a = true →
    ∃ t : State, applyEvent (.mcuLoad a) s = .next t ∧ t.topologyOk = true ∧
      t.code = s.code ∧ t.pending = s.pending ∧ t.draws = s.draws ∧
      List.Forall₂ (fun before lp' =>
        let lp := before.takeDueAbort
        let o := lp.cfg
        let c := a.forLp lp.id
        lp' = { lp with
          present := s.placed a before
          cfg := c
          events := lp.events ++ [.mcuLoad]
          specCtrl := lp'.specCtrl
          mcuOptCtrl := lp'.mcuOptCtrl
          tsxCtrl :=
            if msrExists .tsxCtrl c then
              (if msrExists .tsxCtrl o then lp.tsxCtrl else c.resetTsxCtrl.setWidth 64)
            else if msrExists .tsxCtrl o then 0 else lp.tsxCtrl
          tsxForceAbort :=
            if msrExists .tsxForceAbort c then
              (if msrExists .tsxForceAbort o then lp.tsxForceAbort
                else if c.resetTfaBit0 then 1 else 0)
            else if msrExists .tsxForceAbort o then 0 else lp.tsxForceAbort
          uarchMiscCtl :=
            if msrExists .uarchMiscCtl c then
              (if msrExists .uarchMiscCtl o then lp.uarchMiscCtl else 0)
            else if msrExists .uarchMiscCtl o then 0 else lp.uarchMiscCtl
          xapicDisabled :=
            if msrExists .xapicDisableStatus c then
              (if msrExists .xapicDisableStatus o then lp.xapicDisabled else c.resetXapicLocked)
            else if msrExists .xapicDisableStatus o then false else lp.xapicDisabled
          gdsLockHeld :=
            !archCapBit c 25 && (lp.mcuOptCtrl.getLsbD 5 || lp.gdsLockHeld)
          apicExtd :=
            lp.apicExtd || (msrExists .xapicDisableStatus c && lp'.xapicDisabled) } ∧
        (∀ n, lp'.specCtrl.getLsbD n =
          (lp.specCtrl.getLsbD n && specCtrlBitEnumerated o n && specCtrlBitEnumerated c n)) ∧
        (∀ n, lp'.mcuOptCtrl.getLsbD n =
          if mcuBitEnumerated c n = false then false
          else if n = 4 then false
          else if n = 5 then
            lp.mcuOptCtrl.getLsbD 5 || lp.gdsLockHeld || c.gdsLockAtMcuLoad
          else if mcuBitEnumerated o n then lp.mcuOptCtrl.getLsbD n
          else match n with
            | 1 => c.resetRtmAllow && !c.resetRtmLocked
            | 2 => c.resetRtmLocked
            | 3 => c.resetFbClearDis
            | 6 => true
            | _ => false)) s.threads t.threads

/-- R362: when MCHECK completes on a logical processor in x2APIC mode whose status MSR exists, the lock
is set; in every other case nothing changes, and no other logical processor is touched. The WRMSR to
79H itself is outside the spec: it is refused. -/
def Obligations.McheckCompletionSetsTheLock : Prop :=
  (∀ (s : State) (n : Nat), s.hasLp n = true →
    ∃ t : State, applyEvent (.mcheckComplete n) s = .next t ∧
      t.code = s.code ∧ t.pending = s.pending ∧ t.draws = s.draws ∧
      List.Forall₂ (fun lp lp' =>
        lp' = if lp.id = n ∧ msrExists .xapicDisableStatus lp.cfg = true ∧ lp.apicExtd = true then
          { lp with xapicDisabled := true } else lp) s.threads t.threads) ∧
  (∀ s : State, s.cur.cpl = 0 → s.cur.ecx = 0x79 →
    exec .wrmsr s = .refused (.msrOutsideSpec 0x79) ∧
    exec .wrmsrMcheck s = .refused (.msrOutsideSpec 0x79))

/-- R376: a logical processor that enters or leaves an enclave appends the overwrite record where it
crosses the boundary and its configuration has TSX_CTRL without TAA_NO; no MSR enters into it. Nothing
else of it changes, leaving touches no other logical processor, and neither touches the program or the
queue. (That its own configuration decides, and that a repeated entry or exit is no boundary, is entry
24.) -/
def Obligations.EnclaveBoundaryOverwritesBuffers : Prop :=
  ∀ (s : State) (n : Nat), s.hasLp n = true →
    ∃ t u : State, applyEvent (.enclaveEnter n) s = .next t ∧
      applyEvent (.enclaveExit n) s = .next u ∧
      t.code = s.code ∧ t.pending = s.pending ∧
      u.code = s.code ∧ u.pending = s.pending ∧ u.draws = s.draws ∧
      List.Forall₂ (fun lp lp' =>
        lp.id = n → lp' = { lp with
          inEnclave := true
          events := lp.events ++
            (if !lp.inEnclave && archCapBit lp.cfg 7 && !archCapBit lp.cfg 8 then
              [.enclaveBufferOverwrite] else []) }) s.threads t.threads ∧
      List.Forall₂ (fun lp lp' =>
        (lp.id ≠ n → lp' = lp) ∧
        (lp.id = n → lp' = { lp with
          inEnclave := false
          events := lp.events ++
            (if lp.inEnclave && archCapBit lp.cfg 7 && !archCapBit lp.cfg 8 then
              [.enclaveBufferOverwrite] else []) })) s.threads u.threads

/-- R375 (the EAX of this abort is free, entry 18): when a logical processor enters an enclave, every
sibling in a transaction aborts where its configuration has the behaviour (entry 24), and no other is
touched; a transaction does not begin while a sibling is in an enclave (entry 20; an abort R374 makes due
comes before the attempt, entry 21). -/
def Obligations.EnclaveEntryAbortsSiblings : Prop :=
  (∀ (s : State) (n : Nat) (e : LogicalProcessor), s.findLp n = some e →
    ∃ t : State, applyEvent (.enclaveEnter n) s = .next t ∧
      t.code = s.code ∧ t.pending = s.pending ∧
      List.Forall₂ (fun lp lp' => lp.id ≠ n →
        if lp.present = true ∧ lp.core = e.core ∧ lp.inRtm = true ∧
            taaSgxBehaviour lp.cfg = true ∧ lp.cfg.hyperthreading = true then
          ∃ code : Word, lp' = { lp with
            eax := code, inRtm := false, events := lp.events ++ [.rtmAbort .siblingEnclave],
            ip := lp.rtmFallback }
        else lp' = lp) s.threads t.threads) ∧
  (∀ (s : State) (n k : Nat) (lp : LogicalProcessor), s.findLp n = some lp →
    ∃ t : State, applyEvent (.rtmBegin n k) s = .next t ∧
      t.code = s.code ∧ t.pending = s.pending ∧ t.draws = s.draws ∧
      List.Forall₂ (fun before lp' => lp' =
        if before.id = n then
          (if siblingInEnclaveBlocksTsx s lp then before.takeDueAbort
            else { before.takeDueAbort with inRtm := true, rtmFallback := k })
        else before) s.threads t.threads)

/-- R405 (decision D9; entry 10): the environment picks which logical processor executes next, and
that changes no logical processor. -/
def Obligations.SchedulingOnlyReorders : Prop :=
  ∀ (s : State) (n : Nat), s.numbersOk = true → s.hasLp n = true →
    ∃ t : State, applyEvent (.schedule n) s = .next t ∧ t.cur.id = n ∧
      List.Perm t.threads s.threads ∧ t.code = s.code ∧ t.pending = s.pending ∧ t.draws = s.draws

/-- INIT# and SIPI# change nothing (R424, decision D41). The model's own events (entries 20, 25 and
37): a transaction ends, the platform locks RTM_ALLOW, software outside the spec leaves values in the
registers; each on one logical processor only, the first and the last after the abort R374 makes due
(entry 21). -/
def Obligations.ContextEventsTouchOneProcessor : Prop :=
  ∀ (s : State) (n : Nat), s.hasLp n = true →
    applyEvent (.init n) s = .next s ∧ applyEvent (.sipi n) s = .next s ∧
    (∃ t : State, applyEvent (.rtmEnd n) s = .next t ∧
      t.code = s.code ∧ t.pending = s.pending ∧ t.draws = s.draws ∧
      List.Forall₂ (fun lp lp' =>
        lp' = if lp.id = n then { lp.takeDueAbort with inRtm := false } else lp)
        s.threads t.threads) ∧
    (∃ t : State, applyEvent (.rtmLock n) s = .next t ∧
      t.code = s.code ∧ t.pending = s.pending ∧ t.draws = s.draws ∧
      List.Forall₂ (fun lp lp' =>
        (lp.id ≠ n ∨ lp.cfg.mcuRtmBits = false → lp' = lp) ∧
        (lp.id = n → lp.cfg.mcuRtmBits = true →
          lp' = { lp with mcuOptCtrl := lp'.mcuOptCtrl } ∧
          lp'.mcuOptCtrl.getLsbD 2 = true ∧ lp'.mcuOptCtrl.getLsbD 1 = false ∧
          ∀ k, k ≠ 1 → k ≠ 2 → lp'.mcuOptCtrl.getLsbD k = lp.mcuOptCtrl.getLsbD k))
        s.threads t.threads) ∧
    (∀ (a b c d : Word) (ip : Nat), ∃ t : State,
      applyEvent (.software n a b c d ip) s = .next t ∧
      t.code = s.code ∧ t.pending = s.pending ∧ t.draws = s.draws ∧
      List.Forall₂ (fun lp lp' =>
        lp' = if lp.id = n then
            { lp.takeDueAbort with eax := a, ebx := b, ecx := c, edx := d, ip := ip }
          else lp) s.threads t.threads)

/-- R426 with R33 and R41, R22, and entries 10 and 23: a reset or a load with a configuration that breaks
the constraints is refused, so is one whose CORES and THREADS_PER_CORE the package cannot have, and so is
every event that names no logical processor of the package. What the constraints say of a configuration
and of the package stands beside it. -/
def Obligations.EventsOutsideTheModelAreRefused : Prop :=
  (∀ (s : State) (a : CfgAssignment),
    (∃ lp ∈ s.threads, cfgWf (a.forLp lp.id) = false) ∨ (s.assigned a).topologyOk = false →
    applyEvent (.reset a) s = .refused .illFormedCfg ∧
    applyEvent (.mcuLoad a) s = .refused .illFormedCfg) ∧
  (∀ (s : State) (n k ip : Nat) (a b c d : Word) (e : EnvEvent), s.hasLp n = false →
    e ∈ [EnvEvent.schedule n, .init n, .sipi n, .mcheckComplete n, .enclaveEnter n, .enclaveExit n,
      .rtmBegin n k, .rtmEnd n, .rtmLock n, .software n a b c d ip] →
    applyEvent e s = .refused (.noSuchLogicalProcessor n)) ∧
  (∀ c : Cfg, cfgWf c = true →
    (c.c70Edx.getLsbD 11 = true → c.c70Edx.getLsbD 13 = true) ∧
    ¬(c.archCap.getLsbD 27 = true ∧ c.archCap.getLsbD 28 = true) ∧
    (1 < c.threadsPerCore ↔ c.hyperthreading = true)) ∧
  (∀ s : State, s.numbersOk = true → s.topologyOk = true →
    s.cur ∈ s.lps ∧ ∀ lp ∈ s.lps,
      lp.cfg.threadsPerCore = (s.lps.filter fun t => t.core == lp.core).length ∧
      lp.cfg.cores = (s.lps.map fun t => t.core).toFinset.card)

/-! ### Invariants of every step -/

/-- R204, R305 (a) to (d), R53 (the lock as it reads, entry 41), R33, the topology of R22 and the canonical
form of the program: every step keeps them, an instruction or an event, from every state that has
them. -/
def Obligations.EveryStepKeepsTheInvariant : Prop :=
  ∀ s t : State, s.ok = true → step s = .next t → t.ok = true

/-- The state after reset has the invariant. -/
def Obligations.ResetStateHasTheInvariant : Prop := State.reset.ok = true

/-- R434, R305 (e), R299, R363, R427: the one-way locks. No step but a reset takes GDS_MITG_LOCK from 1 to 0
on any logical processor; a load that takes the field away leaves the lock held (entry 22), and where the
field is enumerated the lock is what it reads. No step but a reset takes LEGACY_XAPIC_DISABLED or RTM_LOCKED
from 1 to 0 while the field is enumerated before and after: a load that takes one of these two away drops it
(R426), and one that enumerates it anew gives it its reset value (R427). -/
def Obligations.LocksAreOneWay : Prop :=
  (∀ s t : State, s.ok = true → step s = .next t → (∀ a q, s.pending ≠ .event (.reset a) :: q) →
    ∀ lp ∈ s.threads, ∃ lp' ∈ t.threads, lp'.id = lp.id ∧
      (gdsLocked lp = true → gdsLocked lp' = true) ∧
      (lp.cfg.mcuRtmBits = true → lp'.cfg.mcuRtmBits = true →
        lp.mcuOptCtrl.getLsbD 2 = true → lp'.mcuOptCtrl.getLsbD 2 = true) ∧
      (msrExists .xapicDisableStatus lp.cfg = true → msrExists .xapicDisableStatus lp'.cfg = true →
        lp.xapicDisabled = true → lp'.xapicDisabled = true)) ∧
  (∀ lp : LogicalProcessor, lpOk lp = true →
    (archCapBit lp.cfg 25 = true → gdsLocked lp = lp.mcuOptCtrl.getLsbD 5) ∧
    (archCapBit lp.cfg 25 = false → lp.mcuOptCtrl.getLsbD 5 = false))

/-- R60 and R435: every step but a reset keeps every logical processor's event history and at most
appends to it. -/
def Obligations.EventHistoryIsAppendOnly : Prop :=
  ∀ s t : State, s.numbersOk = true → step s = .next t → (∀ a q, s.pending ≠ .event (.reset a) :: q) →
    ∀ lp ∈ s.threads, ∃ lp' ∈ t.threads, lp'.id = lp.id ∧ lp.events <+: lp'.events

/-- R375: no logical processor is in a transaction while a sibling is in an enclave, where the
configuration has the behaviour. Every step keeps that but a microcode load, which may turn the
behaviour on around a transaction in progress. -/
def Obligations.EnclavesAndTransactionsStayApart : Prop :=
  (∀ s t : State, s.numbersOk = true → s.rtmIsolated = true → step s = .next t →
    (∀ a q, s.pending ≠ .event (.mcuLoad a) :: q) → t.numbersOk = true ∧ t.rtmIsolated = true) ∧
  State.reset.numbersOk = true ∧ State.reset.rtmIsolated = true

/-- R386, one instruction of it, from which it follows for every sequence: two machines that differ
only in the modes and the histories do the same on CPUID, RDMSR and WRMSR, and still differ only there,
unless RDMSR reads one of the differing registers. -/
def Obligations.ModesDoNotReachTheRegisters : Prop :=
  ∀ (i : Instr) (s s' : State), i.base = .cpuid ∨ i.base = .rdmsr ∨ i.base = .wrmsr →
    apartInModes s.cur s'.cur →
    ¬(i.base = .rdmsr ∧ (s.cur.ecx = 0x48 ∨ s.cur.ecx = 0x123 ∨ s.cur.ecx = 0x1B01)) →
    (∀ t, exec i s = .next t → ∃ t', exec i s' = .next t' ∧ apartInModes t.cur t'.cur) ∧
    (∀ f, exec i s = .fault f → f = .gp 0 s ∧ exec i s' = .fault (.gp 0 s')) ∧
    (∀ r, exec i s = .refused r → exec i s' = .refused r)
end

