-- ==== Sys2Proof/Laws/State.lean ====
section
/-! SUPPORT. One lemma per field per update, true by rfl: no later proof unfolds a record update. -/

namespace Sys2Proof.Machine

/-! ### `advance` -/

@[simp] theorem LogicalProcessor.advance_id (n : Nat) (lp : LogicalProcessor) :
    (lp.advance n).id = lp.id := rfl
@[simp] theorem LogicalProcessor.advance_core (n : Nat) (lp : LogicalProcessor) :
    (lp.advance n).core = lp.core := rfl
@[simp] theorem LogicalProcessor.advance_coreModule (n : Nat) (lp : LogicalProcessor) :
    (lp.advance n).coreModule = lp.coreModule := rfl
@[simp] theorem LogicalProcessor.advance_present (n : Nat) (lp : LogicalProcessor) :
    (lp.advance n).present = lp.present := rfl
@[simp] theorem LogicalProcessor.advance_cfg (n : Nat) (lp : LogicalProcessor) :
    (lp.advance n).cfg = lp.cfg := rfl
@[simp] theorem LogicalProcessor.advance_eax (n : Nat) (lp : LogicalProcessor) :
    (lp.advance n).eax = lp.eax := rfl
@[simp] theorem LogicalProcessor.advance_ebx (n : Nat) (lp : LogicalProcessor) :
    (lp.advance n).ebx = lp.ebx := rfl
@[simp] theorem LogicalProcessor.advance_ecx (n : Nat) (lp : LogicalProcessor) :
    (lp.advance n).ecx = lp.ecx := rfl
@[simp] theorem LogicalProcessor.advance_edx (n : Nat) (lp : LogicalProcessor) :
    (lp.advance n).edx = lp.edx := rfl
@[simp] theorem LogicalProcessor.advance_cpl (n : Nat) (lp : LogicalProcessor) :
    (lp.advance n).cpl = lp.cpl := rfl
@[simp] theorem LogicalProcessor.advance_ip (n : Nat) (lp : LogicalProcessor) :
    (lp.advance n).ip = lp.ip + n := rfl
@[simp] theorem LogicalProcessor.advance_inEnclave (n : Nat) (lp : LogicalProcessor) :
    (lp.advance n).inEnclave = lp.inEnclave := rfl
@[simp] theorem LogicalProcessor.advance_inRtm (n : Nat) (lp : LogicalProcessor) :
    (lp.advance n).inRtm = lp.inRtm := rfl
@[simp] theorem LogicalProcessor.advance_rtmFallback (n : Nat) (lp : LogicalProcessor) :
    (lp.advance n).rtmFallback = lp.rtmFallback := rfl
@[simp] theorem LogicalProcessor.advance_events (n : Nat) (lp : LogicalProcessor) :
    (lp.advance n).events = lp.events := rfl
@[simp] theorem LogicalProcessor.advance_effects (n : Nat) (lp : LogicalProcessor) :
    (lp.advance n).effects = lp.effects := rfl
@[simp] theorem LogicalProcessor.advance_specCtrl (n : Nat) (lp : LogicalProcessor) :
    (lp.advance n).specCtrl = lp.specCtrl := rfl
@[simp] theorem LogicalProcessor.advance_mcuOptCtrl (n : Nat) (lp : LogicalProcessor) :
    (lp.advance n).mcuOptCtrl = lp.mcuOptCtrl := rfl
@[simp] theorem LogicalProcessor.advance_tsxCtrl (n : Nat) (lp : LogicalProcessor) :
    (lp.advance n).tsxCtrl = lp.tsxCtrl := rfl
@[simp] theorem LogicalProcessor.advance_tsxForceAbort (n : Nat) (lp : LogicalProcessor) :
    (lp.advance n).tsxForceAbort = lp.tsxForceAbort := rfl
@[simp] theorem LogicalProcessor.advance_uarchMiscCtl (n : Nat) (lp : LogicalProcessor) :
    (lp.advance n).uarchMiscCtl = lp.uarchMiscCtl := rfl
@[simp] theorem LogicalProcessor.advance_xapicDisabled (n : Nat) (lp : LogicalProcessor) :
    (lp.advance n).xapicDisabled = lp.xapicDisabled := rfl
@[simp] theorem LogicalProcessor.advance_gdsLockHeld (n : Nat) (lp : LogicalProcessor) :
    (lp.advance n).gdsLockHeld = lp.gdsLockHeld := rfl
@[simp] theorem LogicalProcessor.advance_apicExtd (n : Nat) (lp : LogicalProcessor) :
    (lp.advance n).apicExtd = lp.apicExtd := rfl
@[simp] theorem LogicalProcessor.advance_apicOther (n : Nat) (lp : LogicalProcessor) :
    (lp.advance n).apicOther = lp.apicOther := rfl
@[simp] theorem LogicalProcessor.advance_start (n : Nat) (lp : LogicalProcessor) :
    (lp.advance n).start = lp.start := rfl

/-! ### `emit` -/

@[simp] theorem LogicalProcessor.emit_id (e : Event) (lp : LogicalProcessor) :
    (lp.emit e).id = lp.id := rfl
@[simp] theorem LogicalProcessor.emit_core (e : Event) (lp : LogicalProcessor) :
    (lp.emit e).core = lp.core := rfl
@[simp] theorem LogicalProcessor.emit_coreModule (e : Event) (lp : LogicalProcessor) :
    (lp.emit e).coreModule = lp.coreModule := rfl
@[simp] theorem LogicalProcessor.emit_present (e : Event) (lp : LogicalProcessor) :
    (lp.emit e).present = lp.present := rfl
@[simp] theorem LogicalProcessor.emit_cfg (e : Event) (lp : LogicalProcessor) :
    (lp.emit e).cfg = lp.cfg := rfl
@[simp] theorem LogicalProcessor.emit_eax (e : Event) (lp : LogicalProcessor) :
    (lp.emit e).eax = lp.eax := rfl
@[simp] theorem LogicalProcessor.emit_ebx (e : Event) (lp : LogicalProcessor) :
    (lp.emit e).ebx = lp.ebx := rfl
@[simp] theorem LogicalProcessor.emit_ecx (e : Event) (lp : LogicalProcessor) :
    (lp.emit e).ecx = lp.ecx := rfl
@[simp] theorem LogicalProcessor.emit_edx (e : Event) (lp : LogicalProcessor) :
    (lp.emit e).edx = lp.edx := rfl
@[simp] theorem LogicalProcessor.emit_cpl (e : Event) (lp : LogicalProcessor) :
    (lp.emit e).cpl = lp.cpl := rfl
@[simp] theorem LogicalProcessor.emit_ip (e : Event) (lp : LogicalProcessor) :
    (lp.emit e).ip = lp.ip := rfl
@[simp] theorem LogicalProcessor.emit_inEnclave (e : Event) (lp : LogicalProcessor) :
    (lp.emit e).inEnclave = lp.inEnclave := rfl
@[simp] theorem LogicalProcessor.emit_inRtm (e : Event) (lp : LogicalProcessor) :
    (lp.emit e).inRtm = lp.inRtm := rfl
@[simp] theorem LogicalProcessor.emit_rtmFallback (e : Event) (lp : LogicalProcessor) :
    (lp.emit e).rtmFallback = lp.rtmFallback := rfl
@[simp] theorem LogicalProcessor.emit_events (e : Event) (lp : LogicalProcessor) :
    (lp.emit e).events = lp.events ++ [e] := rfl
@[simp] theorem LogicalProcessor.emit_effects (e : Event) (lp : LogicalProcessor) :
    (lp.emit e).effects = lp.effects := rfl
@[simp] theorem LogicalProcessor.emit_specCtrl (e : Event) (lp : LogicalProcessor) :
    (lp.emit e).specCtrl = lp.specCtrl := rfl
@[simp] theorem LogicalProcessor.emit_mcuOptCtrl (e : Event) (lp : LogicalProcessor) :
    (lp.emit e).mcuOptCtrl = lp.mcuOptCtrl := rfl
@[simp] theorem LogicalProcessor.emit_tsxCtrl (e : Event) (lp : LogicalProcessor) :
    (lp.emit e).tsxCtrl = lp.tsxCtrl := rfl
@[simp] theorem LogicalProcessor.emit_tsxForceAbort (e : Event) (lp : LogicalProcessor) :
    (lp.emit e).tsxForceAbort = lp.tsxForceAbort := rfl
@[simp] theorem LogicalProcessor.emit_uarchMiscCtl (e : Event) (lp : LogicalProcessor) :
    (lp.emit e).uarchMiscCtl = lp.uarchMiscCtl := rfl
@[simp] theorem LogicalProcessor.emit_xapicDisabled (e : Event) (lp : LogicalProcessor) :
    (lp.emit e).xapicDisabled = lp.xapicDisabled := rfl
@[simp] theorem LogicalProcessor.emit_gdsLockHeld (e : Event) (lp : LogicalProcessor) :
    (lp.emit e).gdsLockHeld = lp.gdsLockHeld := rfl
@[simp] theorem LogicalProcessor.emit_apicExtd (e : Event) (lp : LogicalProcessor) :
    (lp.emit e).apicExtd = lp.apicExtd := rfl
@[simp] theorem LogicalProcessor.emit_apicOther (e : Event) (lp : LogicalProcessor) :
    (lp.emit e).apicOther = lp.apicOther := rfl
@[simp] theorem LogicalProcessor.emit_start (e : Event) (lp : LogicalProcessor) :
    (lp.emit e).start = lp.start := rfl

/-! ### `note` -/

@[simp] theorem LogicalProcessor.note_id (e : Effect) (lp : LogicalProcessor) :
    (lp.note e).id = lp.id := rfl
@[simp] theorem LogicalProcessor.note_core (e : Effect) (lp : LogicalProcessor) :
    (lp.note e).core = lp.core := rfl
@[simp] theorem LogicalProcessor.note_coreModule (e : Effect) (lp : LogicalProcessor) :
    (lp.note e).coreModule = lp.coreModule := rfl
@[simp] theorem LogicalProcessor.note_present (e : Effect) (lp : LogicalProcessor) :
    (lp.note e).present = lp.present := rfl
@[simp] theorem LogicalProcessor.note_cfg (e : Effect) (lp : LogicalProcessor) :
    (lp.note e).cfg = lp.cfg := rfl
@[simp] theorem LogicalProcessor.note_eax (e : Effect) (lp : LogicalProcessor) :
    (lp.note e).eax = lp.eax := rfl
@[simp] theorem LogicalProcessor.note_ebx (e : Effect) (lp : LogicalProcessor) :
    (lp.note e).ebx = lp.ebx := rfl
@[simp] theorem LogicalProcessor.note_ecx (e : Effect) (lp : LogicalProcessor) :
    (lp.note e).ecx = lp.ecx := rfl
@[simp] theorem LogicalProcessor.note_edx (e : Effect) (lp : LogicalProcessor) :
    (lp.note e).edx = lp.edx := rfl
@[simp] theorem LogicalProcessor.note_cpl (e : Effect) (lp : LogicalProcessor) :
    (lp.note e).cpl = lp.cpl := rfl
@[simp] theorem LogicalProcessor.note_ip (e : Effect) (lp : LogicalProcessor) :
    (lp.note e).ip = lp.ip := rfl
@[simp] theorem LogicalProcessor.note_inEnclave (e : Effect) (lp : LogicalProcessor) :
    (lp.note e).inEnclave = lp.inEnclave := rfl
@[simp] theorem LogicalProcessor.note_inRtm (e : Effect) (lp : LogicalProcessor) :
    (lp.note e).inRtm = lp.inRtm := rfl
@[simp] theorem LogicalProcessor.note_rtmFallback (e : Effect) (lp : LogicalProcessor) :
    (lp.note e).rtmFallback = lp.rtmFallback := rfl
@[simp] theorem LogicalProcessor.note_events (e : Effect) (lp : LogicalProcessor) :
    (lp.note e).events = lp.events := rfl
@[simp] theorem LogicalProcessor.note_effects (e : Effect) (lp : LogicalProcessor) :
    (lp.note e).effects = lp.effects ++ [e] := rfl
@[simp] theorem LogicalProcessor.note_specCtrl (e : Effect) (lp : LogicalProcessor) :
    (lp.note e).specCtrl = lp.specCtrl := rfl
@[simp] theorem LogicalProcessor.note_mcuOptCtrl (e : Effect) (lp : LogicalProcessor) :
    (lp.note e).mcuOptCtrl = lp.mcuOptCtrl := rfl
@[simp] theorem LogicalProcessor.note_tsxCtrl (e : Effect) (lp : LogicalProcessor) :
    (lp.note e).tsxCtrl = lp.tsxCtrl := rfl
@[simp] theorem LogicalProcessor.note_tsxForceAbort (e : Effect) (lp : LogicalProcessor) :
    (lp.note e).tsxForceAbort = lp.tsxForceAbort := rfl
@[simp] theorem LogicalProcessor.note_uarchMiscCtl (e : Effect) (lp : LogicalProcessor) :
    (lp.note e).uarchMiscCtl = lp.uarchMiscCtl := rfl
@[simp] theorem LogicalProcessor.note_xapicDisabled (e : Effect) (lp : LogicalProcessor) :
    (lp.note e).xapicDisabled = lp.xapicDisabled := rfl
@[simp] theorem LogicalProcessor.note_gdsLockHeld (e : Effect) (lp : LogicalProcessor) :
    (lp.note e).gdsLockHeld = lp.gdsLockHeld := rfl
@[simp] theorem LogicalProcessor.note_apicExtd (e : Effect) (lp : LogicalProcessor) :
    (lp.note e).apicExtd = lp.apicExtd := rfl
@[simp] theorem LogicalProcessor.note_apicOther (e : Effect) (lp : LogicalProcessor) :
    (lp.note e).apicOther = lp.apicOther := rfl
@[simp] theorem LogicalProcessor.note_start (e : Effect) (lp : LogicalProcessor) :
    (lp.note e).start = lp.start := rfl

/-! ### `rtmAbort` -/

@[simp] theorem LogicalProcessor.rtmAbort_id (c : AbortCause) (v : Word) (k : Nat) (lp : LogicalProcessor) :
    (lp.rtmAbort c v k).id = lp.id := rfl
@[simp] theorem LogicalProcessor.rtmAbort_core (c : AbortCause) (v : Word) (k : Nat) (lp : LogicalProcessor) :
    (lp.rtmAbort c v k).core = lp.core := rfl
@[simp] theorem LogicalProcessor.rtmAbort_coreModule (c : AbortCause) (v : Word) (k : Nat) (lp : LogicalProcessor) :
    (lp.rtmAbort c v k).coreModule = lp.coreModule := rfl
@[simp] theorem LogicalProcessor.rtmAbort_present (c : AbortCause) (v : Word) (k : Nat) (lp : LogicalProcessor) :
    (lp.rtmAbort c v k).present = lp.present := rfl
@[simp] theorem LogicalProcessor.rtmAbort_cfg (c : AbortCause) (v : Word) (k : Nat) (lp : LogicalProcessor) :
    (lp.rtmAbort c v k).cfg = lp.cfg := rfl
@[simp] theorem LogicalProcessor.rtmAbort_eax (c : AbortCause) (v : Word) (k : Nat) (lp : LogicalProcessor) :
    (lp.rtmAbort c v k).eax = v := rfl
@[simp] theorem LogicalProcessor.rtmAbort_ebx (c : AbortCause) (v : Word) (k : Nat) (lp : LogicalProcessor) :
    (lp.rtmAbort c v k).ebx = lp.ebx := rfl
@[simp] theorem LogicalProcessor.rtmAbort_ecx (c : AbortCause) (v : Word) (k : Nat) (lp : LogicalProcessor) :
    (lp.rtmAbort c v k).ecx = lp.ecx := rfl
@[simp] theorem LogicalProcessor.rtmAbort_edx (c : AbortCause) (v : Word) (k : Nat) (lp : LogicalProcessor) :
    (lp.rtmAbort c v k).edx = lp.edx := rfl
@[simp] theorem LogicalProcessor.rtmAbort_cpl (c : AbortCause) (v : Word) (k : Nat) (lp : LogicalProcessor) :
    (lp.rtmAbort c v k).cpl = lp.cpl := rfl
@[simp] theorem LogicalProcessor.rtmAbort_ip (c : AbortCause) (v : Word) (k : Nat) (lp : LogicalProcessor) :
    (lp.rtmAbort c v k).ip = k := rfl
@[simp] theorem LogicalProcessor.rtmAbort_inEnclave (c : AbortCause) (v : Word) (k : Nat) (lp : LogicalProcessor) :
    (lp.rtmAbort c v k).inEnclave = lp.inEnclave := rfl
@[simp] theorem LogicalProcessor.rtmAbort_inRtm (c : AbortCause) (v : Word) (k : Nat) (lp : LogicalProcessor) :
    (lp.rtmAbort c v k).inRtm = false := rfl
@[simp] theorem LogicalProcessor.rtmAbort_rtmFallback (c : AbortCause) (v : Word) (k : Nat) (lp : LogicalProcessor) :
    (lp.rtmAbort c v k).rtmFallback = lp.rtmFallback := rfl
@[simp] theorem LogicalProcessor.rtmAbort_events (c : AbortCause) (v : Word) (k : Nat) (lp : LogicalProcessor) :
    (lp.rtmAbort c v k).events = lp.events ++ [.rtmAbort c] := rfl
@[simp] theorem LogicalProcessor.rtmAbort_effects (c : AbortCause) (v : Word) (k : Nat) (lp : LogicalProcessor) :
    (lp.rtmAbort c v k).effects = lp.effects := rfl
@[simp] theorem LogicalProcessor.rtmAbort_specCtrl (c : AbortCause) (v : Word) (k : Nat) (lp : LogicalProcessor) :
    (lp.rtmAbort c v k).specCtrl = lp.specCtrl := rfl
@[simp] theorem LogicalProcessor.rtmAbort_mcuOptCtrl (c : AbortCause) (v : Word) (k : Nat) (lp : LogicalProcessor) :
    (lp.rtmAbort c v k).mcuOptCtrl = lp.mcuOptCtrl := rfl
@[simp] theorem LogicalProcessor.rtmAbort_tsxCtrl (c : AbortCause) (v : Word) (k : Nat) (lp : LogicalProcessor) :
    (lp.rtmAbort c v k).tsxCtrl = lp.tsxCtrl := rfl
@[simp] theorem LogicalProcessor.rtmAbort_tsxForceAbort (c : AbortCause) (v : Word) (k : Nat) (lp : LogicalProcessor) :
    (lp.rtmAbort c v k).tsxForceAbort = lp.tsxForceAbort := rfl
@[simp] theorem LogicalProcessor.rtmAbort_uarchMiscCtl (c : AbortCause) (v : Word) (k : Nat) (lp : LogicalProcessor) :
    (lp.rtmAbort c v k).uarchMiscCtl = lp.uarchMiscCtl := rfl
@[simp] theorem LogicalProcessor.rtmAbort_xapicDisabled (c : AbortCause) (v : Word) (k : Nat) (lp : LogicalProcessor) :
    (lp.rtmAbort c v k).xapicDisabled = lp.xapicDisabled := rfl
@[simp] theorem LogicalProcessor.rtmAbort_gdsLockHeld (c : AbortCause) (v : Word) (k : Nat) (lp : LogicalProcessor) :
    (lp.rtmAbort c v k).gdsLockHeld = lp.gdsLockHeld := rfl
@[simp] theorem LogicalProcessor.rtmAbort_apicExtd (c : AbortCause) (v : Word) (k : Nat) (lp : LogicalProcessor) :
    (lp.rtmAbort c v k).apicExtd = lp.apicExtd := rfl
@[simp] theorem LogicalProcessor.rtmAbort_apicOther (c : AbortCause) (v : Word) (k : Nat) (lp : LogicalProcessor) :
    (lp.rtmAbort c v k).apicOther = lp.apicOther := rfl
@[simp] theorem LogicalProcessor.rtmAbort_start (c : AbortCause) (v : Word) (k : Nat) (lp : LogicalProcessor) :
    (lp.rtmAbort c v k).start = lp.start := rfl

/-! ### `putEdxEax` -/

@[simp] theorem putEdxEax_id (v : Quad) (lp : LogicalProcessor) :
    (putEdxEax v lp).id = lp.id := rfl
@[simp] theorem putEdxEax_core (v : Quad) (lp : LogicalProcessor) :
    (putEdxEax v lp).core = lp.core := rfl
@[simp] theorem putEdxEax_coreModule (v : Quad) (lp : LogicalProcessor) :
    (putEdxEax v lp).coreModule = lp.coreModule := rfl
@[simp] theorem putEdxEax_present (v : Quad) (lp : LogicalProcessor) :
    (putEdxEax v lp).present = lp.present := rfl
@[simp] theorem putEdxEax_cfg (v : Quad) (lp : LogicalProcessor) :
    (putEdxEax v lp).cfg = lp.cfg := rfl
@[simp] theorem putEdxEax_eax (v : Quad) (lp : LogicalProcessor) :
    (putEdxEax v lp).eax = v.extractLsb' 0 32 := rfl
@[simp] theorem putEdxEax_ebx (v : Quad) (lp : LogicalProcessor) :
    (putEdxEax v lp).ebx = lp.ebx := rfl
@[simp] theorem putEdxEax_ecx (v : Quad) (lp : LogicalProcessor) :
    (putEdxEax v lp).ecx = lp.ecx := rfl
@[simp] theorem putEdxEax_edx (v : Quad) (lp : LogicalProcessor) :
    (putEdxEax v lp).edx = v.extractLsb' 32 32 := rfl
@[simp] theorem putEdxEax_cpl (v : Quad) (lp : LogicalProcessor) :
    (putEdxEax v lp).cpl = lp.cpl := rfl
@[simp] theorem putEdxEax_ip (v : Quad) (lp : LogicalProcessor) :
    (putEdxEax v lp).ip = lp.ip := rfl
@[simp] theorem putEdxEax_inEnclave (v : Quad) (lp : LogicalProcessor) :
    (putEdxEax v lp).inEnclave = lp.inEnclave := rfl
@[simp] theorem putEdxEax_inRtm (v : Quad) (lp : LogicalProcessor) :
    (putEdxEax v lp).inRtm = lp.inRtm := rfl
@[simp] theorem putEdxEax_rtmFallback (v : Quad) (lp : LogicalProcessor) :
    (putEdxEax v lp).rtmFallback = lp.rtmFallback := rfl
@[simp] theorem putEdxEax_events (v : Quad) (lp : LogicalProcessor) :
    (putEdxEax v lp).events = lp.events := rfl
@[simp] theorem putEdxEax_effects (v : Quad) (lp : LogicalProcessor) :
    (putEdxEax v lp).effects = lp.effects := rfl
@[simp] theorem putEdxEax_specCtrl (v : Quad) (lp : LogicalProcessor) :
    (putEdxEax v lp).specCtrl = lp.specCtrl := rfl
@[simp] theorem putEdxEax_mcuOptCtrl (v : Quad) (lp : LogicalProcessor) :
    (putEdxEax v lp).mcuOptCtrl = lp.mcuOptCtrl := rfl
@[simp] theorem putEdxEax_tsxCtrl (v : Quad) (lp : LogicalProcessor) :
    (putEdxEax v lp).tsxCtrl = lp.tsxCtrl := rfl
@[simp] theorem putEdxEax_tsxForceAbort (v : Quad) (lp : LogicalProcessor) :
    (putEdxEax v lp).tsxForceAbort = lp.tsxForceAbort := rfl
@[simp] theorem putEdxEax_uarchMiscCtl (v : Quad) (lp : LogicalProcessor) :
    (putEdxEax v lp).uarchMiscCtl = lp.uarchMiscCtl := rfl
@[simp] theorem putEdxEax_xapicDisabled (v : Quad) (lp : LogicalProcessor) :
    (putEdxEax v lp).xapicDisabled = lp.xapicDisabled := rfl
@[simp] theorem putEdxEax_gdsLockHeld (v : Quad) (lp : LogicalProcessor) :
    (putEdxEax v lp).gdsLockHeld = lp.gdsLockHeld := rfl
@[simp] theorem putEdxEax_apicExtd (v : Quad) (lp : LogicalProcessor) :
    (putEdxEax v lp).apicExtd = lp.apicExtd := rfl
@[simp] theorem putEdxEax_apicOther (v : Quad) (lp : LogicalProcessor) :
    (putEdxEax v lp).apicOther = lp.apicOther := rfl
@[simp] theorem putEdxEax_start (v : Quad) (lp : LogicalProcessor) :
    (putEdxEax v lp).start = lp.start := rfl

/-! ### `putCpuid` -/

@[simp] theorem putCpuid_id (o : CpuidOut) (lp : LogicalProcessor) :
    (putCpuid o lp).id = lp.id := rfl
@[simp] theorem putCpuid_core (o : CpuidOut) (lp : LogicalProcessor) :
    (putCpuid o lp).core = lp.core := rfl
@[simp] theorem putCpuid_coreModule (o : CpuidOut) (lp : LogicalProcessor) :
    (putCpuid o lp).coreModule = lp.coreModule := rfl
@[simp] theorem putCpuid_present (o : CpuidOut) (lp : LogicalProcessor) :
    (putCpuid o lp).present = lp.present := rfl
@[simp] theorem putCpuid_cfg (o : CpuidOut) (lp : LogicalProcessor) :
    (putCpuid o lp).cfg = lp.cfg := rfl
@[simp] theorem putCpuid_eax (o : CpuidOut) (lp : LogicalProcessor) :
    (putCpuid o lp).eax = o.eax := rfl
@[simp] theorem putCpuid_ebx (o : CpuidOut) (lp : LogicalProcessor) :
    (putCpuid o lp).ebx = o.ebx := rfl
@[simp] theorem putCpuid_ecx (o : CpuidOut) (lp : LogicalProcessor) :
    (putCpuid o lp).ecx = o.ecx := rfl
@[simp] theorem putCpuid_edx (o : CpuidOut) (lp : LogicalProcessor) :
    (putCpuid o lp).edx = o.edx := rfl
@[simp] theorem putCpuid_cpl (o : CpuidOut) (lp : LogicalProcessor) :
    (putCpuid o lp).cpl = lp.cpl := rfl
@[simp] theorem putCpuid_ip (o : CpuidOut) (lp : LogicalProcessor) :
    (putCpuid o lp).ip = lp.ip := rfl
@[simp] theorem putCpuid_inEnclave (o : CpuidOut) (lp : LogicalProcessor) :
    (putCpuid o lp).inEnclave = lp.inEnclave := rfl
@[simp] theorem putCpuid_inRtm (o : CpuidOut) (lp : LogicalProcessor) :
    (putCpuid o lp).inRtm = lp.inRtm := rfl
@[simp] theorem putCpuid_rtmFallback (o : CpuidOut) (lp : LogicalProcessor) :
    (putCpuid o lp).rtmFallback = lp.rtmFallback := rfl
@[simp] theorem putCpuid_events (o : CpuidOut) (lp : LogicalProcessor) :
    (putCpuid o lp).events = lp.events := rfl
@[simp] theorem putCpuid_effects (o : CpuidOut) (lp : LogicalProcessor) :
    (putCpuid o lp).effects = lp.effects := rfl
@[simp] theorem putCpuid_specCtrl (o : CpuidOut) (lp : LogicalProcessor) :
    (putCpuid o lp).specCtrl = lp.specCtrl := rfl
@[simp] theorem putCpuid_mcuOptCtrl (o : CpuidOut) (lp : LogicalProcessor) :
    (putCpuid o lp).mcuOptCtrl = lp.mcuOptCtrl := rfl
@[simp] theorem putCpuid_tsxCtrl (o : CpuidOut) (lp : LogicalProcessor) :
    (putCpuid o lp).tsxCtrl = lp.tsxCtrl := rfl
@[simp] theorem putCpuid_tsxForceAbort (o : CpuidOut) (lp : LogicalProcessor) :
    (putCpuid o lp).tsxForceAbort = lp.tsxForceAbort := rfl
@[simp] theorem putCpuid_uarchMiscCtl (o : CpuidOut) (lp : LogicalProcessor) :
    (putCpuid o lp).uarchMiscCtl = lp.uarchMiscCtl := rfl
@[simp] theorem putCpuid_xapicDisabled (o : CpuidOut) (lp : LogicalProcessor) :
    (putCpuid o lp).xapicDisabled = lp.xapicDisabled := rfl
@[simp] theorem putCpuid_gdsLockHeld (o : CpuidOut) (lp : LogicalProcessor) :
    (putCpuid o lp).gdsLockHeld = lp.gdsLockHeld := rfl
@[simp] theorem putCpuid_apicExtd (o : CpuidOut) (lp : LogicalProcessor) :
    (putCpuid o lp).apicExtd = lp.apicExtd := rfl
@[simp] theorem putCpuid_apicOther (o : CpuidOut) (lp : LogicalProcessor) :
    (putCpuid o lp).apicOther = lp.apicOther := rfl
@[simp] theorem putCpuid_start (o : CpuidOut) (lp : LogicalProcessor) :
    (putCpuid o lp).start = lp.start := rfl

/-! ### `takeDueAbort` -/

@[simp] theorem LogicalProcessor.takeDueAbort_id (lp : LogicalProcessor) :
    lp.takeDueAbort.id = lp.id := by unfold takeDueAbort; split <;> rfl
@[simp] theorem LogicalProcessor.takeDueAbort_core (lp : LogicalProcessor) :
    lp.takeDueAbort.core = lp.core := by unfold takeDueAbort; split <;> rfl
@[simp] theorem LogicalProcessor.takeDueAbort_coreModule (lp : LogicalProcessor) :
    lp.takeDueAbort.coreModule = lp.coreModule := by unfold takeDueAbort; split <;> rfl
@[simp] theorem LogicalProcessor.takeDueAbort_present (lp : LogicalProcessor) :
    lp.takeDueAbort.present = lp.present := by unfold takeDueAbort; split <;> rfl
@[simp] theorem LogicalProcessor.takeDueAbort_cfg (lp : LogicalProcessor) :
    lp.takeDueAbort.cfg = lp.cfg := by unfold takeDueAbort; split <;> rfl
@[simp] theorem LogicalProcessor.takeDueAbort_ebx (lp : LogicalProcessor) :
    lp.takeDueAbort.ebx = lp.ebx := by unfold takeDueAbort; split <;> rfl
@[simp] theorem LogicalProcessor.takeDueAbort_ecx (lp : LogicalProcessor) :
    lp.takeDueAbort.ecx = lp.ecx := by unfold takeDueAbort; split <;> rfl
@[simp] theorem LogicalProcessor.takeDueAbort_edx (lp : LogicalProcessor) :
    lp.takeDueAbort.edx = lp.edx := by unfold takeDueAbort; split <;> rfl
@[simp] theorem LogicalProcessor.takeDueAbort_cpl (lp : LogicalProcessor) :
    lp.takeDueAbort.cpl = lp.cpl := by unfold takeDueAbort; split <;> rfl
@[simp] theorem LogicalProcessor.takeDueAbort_inEnclave (lp : LogicalProcessor) :
    lp.takeDueAbort.inEnclave = lp.inEnclave := by unfold takeDueAbort; split <;> rfl
@[simp] theorem LogicalProcessor.takeDueAbort_rtmFallback (lp : LogicalProcessor) :
    lp.takeDueAbort.rtmFallback = lp.rtmFallback := by unfold takeDueAbort; split <;> rfl
@[simp] theorem LogicalProcessor.takeDueAbort_effects (lp : LogicalProcessor) :
    lp.takeDueAbort.effects = lp.effects := by unfold takeDueAbort; split <;> rfl
@[simp] theorem LogicalProcessor.takeDueAbort_specCtrl (lp : LogicalProcessor) :
    lp.takeDueAbort.specCtrl = lp.specCtrl := by unfold takeDueAbort; split <;> rfl
@[simp] theorem LogicalProcessor.takeDueAbort_mcuOptCtrl (lp : LogicalProcessor) :
    lp.takeDueAbort.mcuOptCtrl = lp.mcuOptCtrl := by unfold takeDueAbort; split <;> rfl
@[simp] theorem LogicalProcessor.takeDueAbort_tsxCtrl (lp : LogicalProcessor) :
    lp.takeDueAbort.tsxCtrl = lp.tsxCtrl := by unfold takeDueAbort; split <;> rfl
@[simp] theorem LogicalProcessor.takeDueAbort_tsxForceAbort (lp : LogicalProcessor) :
    lp.takeDueAbort.tsxForceAbort = lp.tsxForceAbort := by unfold takeDueAbort; split <;> rfl
@[simp] theorem LogicalProcessor.takeDueAbort_uarchMiscCtl (lp : LogicalProcessor) :
    lp.takeDueAbort.uarchMiscCtl = lp.uarchMiscCtl := by unfold takeDueAbort; split <;> rfl
@[simp] theorem LogicalProcessor.takeDueAbort_xapicDisabled (lp : LogicalProcessor) :
    lp.takeDueAbort.xapicDisabled = lp.xapicDisabled := by unfold takeDueAbort; split <;> rfl
@[simp] theorem LogicalProcessor.takeDueAbort_gdsLockHeld (lp : LogicalProcessor) :
    lp.takeDueAbort.gdsLockHeld = lp.gdsLockHeld := by unfold takeDueAbort; split <;> rfl
@[simp] theorem LogicalProcessor.takeDueAbort_apicExtd (lp : LogicalProcessor) :
    lp.takeDueAbort.apicExtd = lp.apicExtd := by unfold takeDueAbort; split <;> rfl
@[simp] theorem LogicalProcessor.takeDueAbort_apicOther (lp : LogicalProcessor) :
    lp.takeDueAbort.apicOther = lp.apicOther := by unfold takeDueAbort; split <;> rfl
@[simp] theorem LogicalProcessor.takeDueAbort_start (lp : LogicalProcessor) :
    lp.takeDueAbort.start = lp.start := by unfold takeDueAbort; split <;> rfl

/-- Where no abort is due nothing happens (R374). -/
@[simp] theorem LogicalProcessor.takeDueAbort_of_not_due {lp : LogicalProcessor}
    (h : rtmMustAbort lp = false) : lp.takeDueAbort = lp := by simp [takeDueAbort, h]

/-- Where the abort is due it is the one of R373, with EAX 0. -/
theorem LogicalProcessor.takeDueAbort_of_due {lp : LogicalProcessor} (h : rtmMustAbort lp = true) :
    lp.takeDueAbort = lp.rtmAbort .forceAbort 0 lp.rtmFallback := by simp [takeDueAbort, h]

/-! ### MONITOR's flush -/

@[simp] theorem monitorsFlushed_code (s : State) : (monitorsFlushed s).code = s.code := by
  unfold monitorsFlushed; split <;> rfl
@[simp] theorem monitorsFlushed_pending (s : State) : (monitorsFlushed s).pending = s.pending := by
  unfold monitorsFlushed; split <;> rfl

/-- The executing logical processor after the flush: only its record of effects may have grown (R379). -/
theorem monitorsFlushed_cur (s : State) : (monitorsFlushed s).cur =
    { s.cur with
      effects := s.cur.effects ++ if monUmonMitg s.cur then [.monitorFlush] else [] } := by
  unfold monitorsFlushed
  split <;> simp_all [LogicalProcessor.note]

/-- Everything a flush can do to another logical processor: nothing, or a note where the flush may reach
it (R118, R379). -/
theorem flushReaching_cases (draws : Nat) (lp t : LogicalProcessor) :
    flushReaching draws lp t = t ∨
      (monitorFlushMayReach lp t = true ∧
        flushReaching draws lp t = t.note (.nearbyFlush lp.id)) := by
  unfold flushReaching
  split <;> simp_all

/-- The others after the flush, one by one. -/
theorem monitorsFlushed_others (s : State) : List.Forall₂
    (fun t t' => t' = t ∨
      (monitorFlushMayReach s.cur t = true ∧ t' = t.note (.nearbyFlush s.cur.id)))
    s.others (monitorsFlushed s).others := by
  unfold monitorsFlushed
  split
  · exact List.forall₂_map_right_iff.2
      (List.forall₂_same.2 fun t _ => flushReaching_cases s.draws s.cur t)
  · exact List.forall₂_same.2 fun t _ => .inl rfl

/-! ### Updates of the state -/

@[simp] theorem State.onCur_cur (s : State) (f : LogicalProcessor → LogicalProcessor) :
    (s.onCur f).cur = f s.cur := rfl
@[simp] theorem State.onCur_others (s : State) (f : LogicalProcessor → LogicalProcessor) :
    (s.onCur f).others = s.others := rfl
@[simp] theorem State.onCur_code (s : State) (f : LogicalProcessor → LogicalProcessor) :
    (s.onCur f).code = s.code := rfl
@[simp] theorem State.onCur_pending (s : State) (f : LogicalProcessor → LogicalProcessor) :
    (s.onCur f).pending = s.pending := rfl
@[simp] theorem State.onCur_draws (s : State) (f : LogicalProcessor → LogicalProcessor) :
    (s.onCur f).draws = s.draws := rfl
@[simp] theorem State.drawn_cur (s : State) : s.drawn.cur = s.cur := rfl
@[simp] theorem State.drawn_others (s : State) : s.drawn.others = s.others := rfl
@[simp] theorem State.drawn_code (s : State) : s.drawn.code = s.code := rfl
@[simp] theorem State.drawn_pending (s : State) : s.drawn.pending = s.pending := rfl
@[simp] theorem State.drawn_draws (s : State) : s.drawn.draws = s.draws + 1 := rfl
@[simp] theorem State.onAll_cur (s : State) (f : LogicalProcessor → LogicalProcessor) :
    (s.onAll f).cur = f s.cur := rfl
@[simp] theorem State.onAll_others (s : State) (f : LogicalProcessor → LogicalProcessor) :
    (s.onAll f).others = s.others.map f := rfl
@[simp] theorem State.onAll_code (s : State) (f : LogicalProcessor → LogicalProcessor) :
    (s.onAll f).code = s.code := rfl
@[simp] theorem State.onAll_pending (s : State) (f : LogicalProcessor → LogicalProcessor) :
    (s.onAll f).pending = s.pending := rfl
@[simp] theorem State.onAll_draws (s : State) (f : LogicalProcessor → LogicalProcessor) :
    (s.onAll f).draws = s.draws := rfl

/-- Every logical processor held after a change of all of them. -/
@[simp] theorem State.onAll_threads (s : State) (f : LogicalProcessor → LogicalProcessor) :
    (s.onAll f).threads = s.threads.map f := rfl

/-- Every logical processor held after a change of the executing one. -/
@[simp] theorem State.onCur_threads (s : State) (f : LogicalProcessor → LogicalProcessor) :
    (s.onCur f).threads = f s.cur :: s.others := rfl

@[simp] theorem State.drawn_threads (s : State) : s.drawn.threads = s.threads := rfl
@[simp] theorem State.drawn_lps (s : State) : s.drawn.lps = s.lps := rfl

/-- The logical processors of the package after a change that makes none come or go. -/
theorem State.onAll_lps (s : State) {f : LogicalProcessor → LogicalProcessor}
    (h : ∀ lp, (f lp).present = lp.present) : (s.onAll f).lps = s.lps.map f := by
  have hp : ((fun lp : LogicalProcessor => lp.present) ∘ f) = fun lp => lp.present := funext h
  rw [State.lps, State.onAll_threads, List.filter_map, hp]
  rfl

@[simp] theorem State.drawnFor_cur (s : State) (c : AbortCause) : (s.drawnFor c).cur = s.cur := by
  cases c <;> rfl
@[simp] theorem State.drawnFor_others (s : State) (c : AbortCause) :
    (s.drawnFor c).others = s.others := by cases c <;> rfl
@[simp] theorem State.drawnFor_code (s : State) (c : AbortCause) :
    (s.drawnFor c).code = s.code := by cases c <;> rfl
@[simp] theorem State.drawnFor_pending (s : State) (c : AbortCause) :
    (s.drawnFor c).pending = s.pending := by cases c <;> rfl

end Sys2Proof.Machine
end

