-- ==== Sys2Proof/Laws/Bits.lean ====
section
/-! SUPPORT. The bit helpers and the operand forms, bit by bit: no later proof unfolds a mask or a
shift. -/

namespace Sys2Proof.Machine

/-- The one-bit vector `1 <<< n`, bit by bit. -/
theorem getLsbD_one_shift {w : Nat} (n m : Nat) :
    (1#w <<< n).getLsbD m = (decide (m = n) && decide (m < w)) := by
  simp only [BitVec.getLsbD_shiftLeft, BitVec.getLsbD_one]
  rw [Bool.eq_iff_iff]
  simp only [Bool.and_eq_true, decide_eq_true_eq, Bool.not_eq_true', decide_eq_false_iff_not]
  omega

/-- Bit `m` after bit `n` is set to `b`. -/
theorem getLsbD_setBit {w : Nat} (v : BitVec w) (n m : Nat) (b : Bool) :
    (setBit v n b).getLsbD m = if m = n ∧ m < w then b else v.getLsbD m := by
  unfold setBit
  rcases Nat.lt_or_ge m w with hm | hm
  · cases b
    · simp only [Bool.false_eq_true, if_false, BitVec.getLsbD_and, BitVec.getLsbD_not,
        getLsbD_one_shift, hm, decide_true, Bool.true_and, Bool.and_true, and_true]
      by_cases h : m = n <;> simp [h]
    · simp only [if_true, BitVec.getLsbD_or, getLsbD_one_shift, hm, decide_true, Bool.and_true,
        and_true]
      by_cases h : m = n <;> simp [h]
  · have h0 : ∀ u : BitVec w, u.getLsbD m = false := fun u => BitVec.getLsbD_of_ge u m hm
    rw [h0, h0, if_neg (by omega)]

/-- Setting a bit inside the width, read at that bit. -/
theorem getLsbD_setBit_self {w : Nat} (v : BitVec w) (n : Nat) (b : Bool) (h : n < w) :
    (setBit v n b).getLsbD n = b := by
  rw [getLsbD_setBit, if_pos ⟨rfl, h⟩]

/-- Setting a bit leaves every other bit. -/
theorem getLsbD_setBit_other {w : Nat} (v : BitVec w) (n m : Nat) (b : Bool) (h : m ≠ n) :
    (setBit v n b).getLsbD m = v.getLsbD m := by
  simp [getLsbD_setBit, h]

/-- Setting a bit to what it is changes nothing. -/
theorem setBit_getLsbD {w : Nat} (v : BitVec w) (n : Nat) : setBit v n (v.getLsbD n) = v := by
  apply BitVec.eq_of_getLsbD_eq
  intro m hm
  rw [getLsbD_setBit]
  split
  · rename_i h; rw [h.1]
  · rfl

/-- A one-bit mask, bit by bit. -/
theorem getLsbD_maskBit (n m : Nat) (b : Bool) :
    (maskBit n b).getLsbD m = (b && decide (m = n) && decide (m < 64)) := by
  unfold maskBit
  cases b
  · simp
  · simp only [if_true, BitVec.getLsbD_shiftLeft, BitVec.getLsbD_one, Bool.true_and]
    by_cases h1 : m = n
    · subst h1; by_cases h2 : m < 64 <;> simp [h2]
    · by_cases h2 : m < n
      · simp [h1, h2]
      · have : m - n ≠ 0 := by omega
        simp [h1, this]

/-- A value has a 0 in every reserved position exactly when each of its 1 bits is implemented. -/
theorem and_not_eq_zero_iff {w : Nat} (v m : BitVec w) :
    v &&& ~~~m = 0#w ↔ ∀ n, v.getLsbD n = true → m.getLsbD n = true := by
  constructor
  · intro h n hn
    have hlt : n < w := by
      by_contra hc
      rw [BitVec.getLsbD_of_ge v n (by omega)] at hn
      exact Bool.false_ne_true hn
    have h2 := congrArg (fun u => u.getLsbD n) h
    simpa [hn, hlt] using h2
  · intro h
    apply BitVec.eq_of_getLsbD_eq
    intro n hn
    have := h n
    cases hv : v.getLsbD n <;> simp_all

/-- The 64-bit operand read back in halves is the two registers. -/
@[simp] theorem edxEax_low (lp : LogicalProcessor) : (edxEax lp).extractLsb' 0 32 = lp.eax := by
  unfold edxEax
  apply BitVec.eq_of_getLsbD_eq
  intro n hn
  rw [BitVec.getLsbD_extractLsb', BitVec.getLsbD_append]
  simp only [Nat.zero_add, hn, decide_true, Bool.true_and, if_true]

/-- The high half of the 64-bit operand is EDX. -/
@[simp] theorem edxEax_high (lp : LogicalProcessor) : (edxEax lp).extractLsb' 32 32 = lp.edx := by
  unfold edxEax
  apply BitVec.eq_of_getLsbD_eq
  intro n hn
  rw [BitVec.getLsbD_extractLsb', BitVec.getLsbD_append]
  simp only [hn, decide_true, Bool.true_and, show ¬ 32 + n < 32 by omega,
    show 32 + n - 32 = n by omega, if_false]

/-- A value in halves, put together again. -/
theorem halves_append (v : Quad) : v.extractLsb' 32 32 ++ v.extractLsb' 0 32 = v := by
  apply BitVec.eq_of_getLsbD_eq
  intro n hn
  rw [BitVec.getLsbD_append]
  by_cases h : n < 32
  · simp [h]
  · simp [h, show n - 32 < 32 by omega, show 32 + (n - 32) = n by omega]

/-- RDMSR's results, taken as WRMSR's operand, are the value read. -/
@[simp] theorem edxEax_putEdxEax (v : Quad) (lp : LogicalProcessor) :
    edxEax (putEdxEax v lp) = v := halves_append v

end Sys2Proof.Machine
end

