-- ==== Sys2Proof/Laws/Memory.lean ====
section
/-! SUPPORT. The program's bytes: read after write, and every operation keeps the canonical form. -/

namespace Sys2Proof.Machine

/-- Reading the byte just placed. -/
@[simp] theorem Memory.read_write_same (m : Memory) (k : Nat) (v : Byte) :
    Memory.read (Memory.write m k v) k = some v := by
  induction m with
  | nil => simp [Memory.write, Memory.read]
  | cons c m ih =>
    obtain ⟨a, b⟩ := c
    simp only [Memory.write]
    split
    · simp [Memory.read]
    · split
      · simp [Memory.read]
      · simp [Memory.read, *]

/-- Reading another address. -/
theorem Memory.read_write_other (m : Memory) (k j : Nat) (v : Byte) (h : j ≠ k) :
    Memory.read (Memory.write m k v) j = Memory.read m j := by
  induction m with
  | nil => simp [Memory.write, Memory.read, h]
  | cons c m ih =>
    obtain ⟨a, b⟩ := c
    simp only [Memory.write]
    split
    · simp [Memory.read, h]
    · split
      · rename_i _ hka; subst hka; simp [Memory.read, h]
      · simp [Memory.read, ih]

/-- Placing a byte keeps every listed address above a bound that lies below its own. -/
theorem Memory.above_write (m : Memory) (a k : Nat) (v : Byte) (hm : Memory.above a m = true)
    (hk : a < k) : Memory.above a (Memory.write m k v) = true := by
  induction m with
  | nil => simp [Memory.above, Memory.write, hk]
  | cons c m ih =>
    obtain ⟨x, b⟩ := c
    simp only [Memory.above, List.all_cons, Bool.and_eq_true, decide_eq_true_eq] at hm ih ⊢
    simp only [Memory.write]
    split
    · simp [hk, hm.1]; simpa using hm.2
    · split
      · simp [hk]; simpa using hm.2
      · simp only [List.all_cons, Bool.and_eq_true, decide_eq_true_eq]
        exact ⟨hm.1, ih hm.2⟩

/-- A bound below another one still bounds. -/
theorem Memory.above_mono {m : Memory} {a b : Nat} (h : Memory.above b m = true) (hab : a ≤ b) :
    Memory.above a m = true := by
  simp only [Memory.above, List.all_eq_true, decide_eq_true_eq] at h ⊢
  intro c hc
  have := h c hc
  omega

/-- Placing a byte keeps the canonical form. -/
theorem Memory.wf_write (m : Memory) (k : Nat) (v : Byte) (h : Memory.wf m = true) :
    Memory.wf (Memory.write m k v) = true := by
  induction m with
  | nil => simp [Memory.write, Memory.wf, Memory.above]
  | cons c m ih =>
    obtain ⟨a, b⟩ := c
    simp only [Memory.wf, Bool.and_eq_true] at h
    simp only [Memory.write]
    split
    · rename_i hka
      simp only [Memory.wf, Bool.and_eq_true]
      refine ⟨?_, h.1, h.2⟩
      simp only [Memory.above, List.all_cons, Bool.and_eq_true, decide_eq_true_eq]
      exact ⟨hka, Memory.above_mono h.1 (by omega)⟩
    · split
      · rename_i hka
        subst hka
        simp only [Memory.wf, Bool.and_eq_true]
        exact h
      · simp only [Memory.wf, Bool.and_eq_true]
        exact ⟨Memory.above_write m a k v h.1 (by omega), ih h.2⟩

/-- Placing bytes keeps the canonical form. -/
theorem Memory.wf_writeAll (m : Memory) (k : Nat) (vs : List Byte) (h : Memory.wf m = true) :
    Memory.wf (Memory.writeAll m k vs) = true := by
  induction vs generalizing m k with
  | nil => exact h
  | cons v vs ih => exact ih _ _ (Memory.wf_write m k v h)

/-- Reading an address below the bytes placed. -/
theorem Memory.read_writeAll_below (m : Memory) (k j : Nat) (vs : List Byte) (h : j < k) :
    Memory.read (Memory.writeAll m k vs) j = Memory.read m j := by
  induction vs generalizing m k with
  | nil => rfl
  | cons v vs ih =>
    rw [Memory.writeAll, ih _ _ (by omega), Memory.read_write_other _ _ _ _ (by omega)]

/-- Reading one of the bytes placed. -/
theorem Memory.read_writeAll_in (m : Memory) (k j : Nat) (vs : List Byte) (h : j < vs.length) :
    Memory.read (Memory.writeAll m k vs) (k + j) = some vs[j] := by
  induction vs generalizing m k j with
  | nil => simp at h
  | cons v vs ih =>
    rw [Memory.writeAll]
    cases j with
    | zero => rw [Memory.read_writeAll_below _ _ _ _ (by omega)]; simp
    | succ j =>
      have := ih (Memory.write m k v) (k + 1) j (by simpa using h)
      rw [show k + (j + 1) = k + 1 + j by omega, this]
      rfl

/-- Reading an address above the bytes placed. -/
theorem Memory.read_writeAll_above (m : Memory) (k j : Nat) (vs : List Byte)
    (h : k + vs.length ≤ j) : Memory.read (Memory.writeAll m k vs) j = Memory.read m j := by
  induction vs generalizing m k with
  | nil => rfl
  | cons v vs ih =>
    simp only [List.length_cons] at h
    rw [Memory.writeAll, ih _ _ (by omega), Memory.read_write_other _ _ _ _ (by omega)]

/-- The bytes of the program from an address on begin with the bytes that stand there. -/
theorem Memory.bytesAt_of_reads (m : Memory) (k n : Nat) (vs : List Byte) (hn : vs.length ≤ n)
    (h : ∀ j (hj : j < vs.length), Memory.read m (k + j) = some vs[j]) :
    Memory.bytesAt m k n = vs ++ Memory.bytesAt m (k + vs.length) (n - vs.length) := by
  induction vs generalizing k n with
  | nil => simp
  | cons v vs ih =>
    cases n with
    | zero => simp at hn
    | succ n =>
      have h0 := h 0 (by simp)
      simp only [Nat.add_zero, List.getElem_cons_zero] at h0
      rw [Memory.bytesAt, h0]
      simp only [List.length_cons, List.cons_append, List.cons.injEq, true_and]
      rw [ih (k + 1) n (by simpa using hn) (by
        intro j hj
        have := h (j + 1) (by simpa using hj)
        rw [show k + 1 + j = k + (j + 1) by omega, this]
        rfl)]
      rw [show k + 1 + vs.length = k + (vs.length + 1) by omega,
        show n + 1 - (vs.length + 1) = n - vs.length by omega]

end Sys2Proof.Machine
end

