-- ==== Sys2Proof/Laws/Ops.lean ====
section
/-! SUPPORT. What each shared operation can do, said once: later proofs cite these and do not unfold
the operation. -/

namespace Sys2Proof.Machine

/-! ### Outcomes -/

theorem complete_next {s t : State} {f : LogicalProcessor → LogicalProcessor}
    (h : complete s f = .next t) : t = s.onCur f := by
  simp only [complete, Host.Outcome.next.injEq] at h
  exact h.symm

@[simp] theorem raiseGP_ne_next (s t : State) : raiseGP s ≠ .next t := by simp [raiseGP]

@[simp] theorem refuse_ne_next (r : Refusal) (t : State) : refuse r ≠ .next t := by simp [refuse]

/-- A selector row completes only where its selector holds, as its instruction does. -/
theorem whenSelected_next {b : Bool} {o : Result} {t : State}
    (h : whenSelected b o = .next t) : b = true ∧ o = .next t := by
  unfold whenSelected at h
  split at h
  · exact ⟨by assumption, h⟩
  · exact absurd h (refuse_ne_next _ _)

@[simp] theorem whenSelected_true (o : Result) : whenSelected true o = o := rfl

@[simp] theorem whenSelected_false (o : Result) :
    whenSelected false o = .refused .rowNotSelected := rfl

/-- An access outside the spec never completes (R194). -/
@[simp] theorem accessOutside_ne_next (s t : State) : accessOutside s ≠ .next t := by
  unfold accessOutside
  split <;> simp

/-! ### The two MSR accesses -/

/-- Everything RDMSR of a known MSR can do when it completes (R190). -/
theorem rdmsrOf_next {m : Msr} {s t : State} (h : rdmsrOf m s = .next t) :
    s.cur.cpl = 0 ∧ msrExists m s.cur.cfg = true ∧ msrClass m ≠ .writeOnly ∧
      t = s.onCur fun lp => (putEdxEax (msrRead m lp) lp).advance 2 := by
  unfold rdmsrOf at h
  split at h
  · exact absurd h (raiseGP_ne_next _ _)
  · split at h
    · exact absurd h (raiseGP_ne_next _ _)
    · split at h
      · exact absurd h (raiseGP_ne_next _ _)
      · exact ⟨by simp_all, by simp_all, by assumption, complete_next h⟩

/-- RDMSR of a known MSR completes where the access is licensed (R190, R429). -/
theorem rdmsrOf_of_licensed {m : Msr} {s : State} (h : readLicensed m s.cur = true) :
    rdmsrOf m s = complete s fun lp => (putEdxEax (msrRead m lp) lp).advance 2 := by
  simp only [readLicensed, Bool.and_eq_true, decide_eq_true_eq] at h
  simp [rdmsrOf, h]

/-- Everything WRMSR to a known MSR can do when it completes (R191). -/
theorem wrmsrOf_next {m : Msr} {s t : State} (h : wrmsrOf m s = .next t) :
    s.cur.cpl = 0 ∧ msrExists m s.cur.cfg = true ∧ msrClass m ≠ .readOnly ∧
      edxEax s.cur &&& msrReserved m s.cur.cfg = 0 ∧ msrOutside m (edxEax s.cur) s.cur = false ∧
      ((msrLegal m (edxEax s.cur) s.cur = true ∧
          t = s.onCur fun lp => (msrWrite m (edxEax s.cur) lp).advance 2) ∨
        (msrLegal m (edxEax s.cur) s.cur = false ∧ msrClamps m s.cur.cfg = true ∧
          t = s.onCur fun lp => (msrWrite m (msrClamp m (edxEax s.cur) lp) lp).advance 2)) := by
  unfold wrmsrOf at h
  simp only at h
  split at h
  · exact absurd h (raiseGP_ne_next _ _)
  split at h
  · exact absurd h (raiseGP_ne_next _ _)
  split at h
  · exact absurd h (raiseGP_ne_next _ _)
  split at h
  · exact absurd h (raiseGP_ne_next _ _)
  split at h
  · exact absurd h (refuse_ne_next _ _)
  refine ⟨by simp_all, by simp_all, by assumption, by simp_all, by simp_all, ?_⟩
  split at h
  · exact .inl ⟨by assumption, complete_next h⟩
  · split at h
    · exact .inr ⟨by simp_all, by assumption, complete_next h⟩
    · exact absurd h (raiseGP_ne_next _ _)

/-- WRMSR to a known MSR completes with the value as given where the access is licensed (R191). -/
theorem wrmsrOf_of_licensed {m : Msr} {s : State}
    (h : writeLicensed m (edxEax s.cur) s.cur = true) :
    wrmsrOf m s = complete s fun lp => (msrWrite m (edxEax s.cur) lp).advance 2 := by
  simp only [writeLicensed, Bool.and_eq_true, decide_eq_true_eq, Bool.not_eq_true'] at h
  simp [wrmsrOf, h]

/-- The index map read backwards: the index of an MSR names it (R54). -/
@[simp] theorem msrOfIndex_msrIndex (m : Msr) : msrOfIndex (msrIndex m) = some m := by
  cases m <;> decide

/-- An index that names an MSR is that MSR's (R54). -/
theorem msrIndex_of_msrOfIndex {idx : Word} {m : Msr} (h : msrOfIndex idx = some m) :
    idx = msrIndex m := by
  unfold msrOfIndex at h
  repeat' (split at h)
  all_goals first
    | (simp only [Option.some.injEq] at h; subst h; assumption)
    | simp at h

/-! ### Which fields a write touches -/

/-- A write of an MSR leaves the registers, the place and the context of the logical processor (R191,
R196): it changes MSR storage and the event history only. -/
theorem msrWrite_frame (m : Msr) (v : Quad) (lp : LogicalProcessor) :
    let t := msrWrite m v lp
    t.id = lp.id ∧ t.core = lp.core ∧ t.coreModule = lp.coreModule ∧ t.present = lp.present ∧
      t.gdsLockHeld = lp.gdsLockHeld ∧ t.cfg = lp.cfg ∧ t.eax = lp.eax ∧ t.ebx = lp.ebx ∧
      t.ecx = lp.ecx ∧ t.edx = lp.edx ∧ t.cpl = lp.cpl ∧ t.ip = lp.ip ∧
      t.inEnclave = lp.inEnclave ∧ t.inRtm = lp.inRtm ∧ t.rtmFallback = lp.rtmFallback ∧
      t.effects = lp.effects ∧ t.apicOther = lp.apicOther ∧ t.start = lp.start := by
  cases m <;> simp only [msrWrite] <;> (try split) <;> simp

/-- The event history after a write is the one before with at most one record more (R60). -/
theorem msrWrite_events (m : Msr) (v : Quad) (lp : LogicalProcessor) :
    ∃ es, (msrWrite m v lp).events = lp.events ++ es := by
  cases m <;> simp only [msrWrite] <;> (try split) <;> simp

/-- Storing a 32-bit register field changes at most the four general registers. -/
theorem putReg_frame (r : RegField) (v : Word) (lp : LogicalProcessor) :
    putReg r v lp = { lp with
      eax := (putReg r v lp).eax, ebx := (putReg r v lp).ebx,
      ecx := (putReg r v lp).ecx, edx := (putReg r v lp).edx } := by
  cases r <;> rfl

/-! ### Events of the environment -/

/-- An event on one logical processor completes exactly where that one exists. -/
theorem applyToLp_next {n : Nat} {f : LogicalProcessor → LogicalProcessor} {s t : State}
    (h : applyToLp n f s = .next t) : s.hasLp n = true ∧ t = s.onLp n f := by
  unfold applyToLp at h
  split at h
  · simp only [Host.Outcome.next.injEq] at h
    exact ⟨by assumption, h.symm⟩
  · exact absurd h (refuse_ne_next _ _)

/-- A reset completes exactly with configurations the machine accepts. -/
theorem applyReset_next {a : CfgAssignment} {s t : State} (h : applyReset a s = .next t) :
    s.accepts a = true ∧
      t = s.onAll fun lp => lp.resetTo (a.forLp lp.id) (s.placed a lp) := by
  unfold applyReset at h
  split at h
  · simp only [Host.Outcome.next.injEq] at h
    exact ⟨by assumption, h.symm⟩
  · exact absurd h (refuse_ne_next _ _)

/-- A microcode load completes exactly with configurations the machine accepts. -/
theorem applyMcuLoad_next {a : CfgAssignment} {s t : State} (h : applyMcuLoad a s = .next t) :
    s.accepts a = true ∧
      t = s.onAll fun lp => lp.takeDueAbort.loadTo (a.forLp lp.id) (s.placed a lp) := by
  unfold applyMcuLoad at h
  split at h
  · simp only [Host.Outcome.next.injEq] at h
    exact ⟨by assumption, h.symm⟩
  · exact absurd h (refuse_ne_next _ _)

/-- Entering an enclave completes exactly where the logical processor exists. -/
theorem applyEnclaveEnter_next {n : Nat} {s t : State} (h : applyEnclaveEnter n s = .next t) :
    ∃ e, s.findLp n = some e ∧ t = enclaveEntered n e.core s := by
  unfold applyEnclaveEnter at h
  split at h
  · rename_i e he
    simp only [Host.Outcome.next.injEq] at h
    exact ⟨e, he, h.symm⟩
  · exact absurd h (refuse_ne_next _ _)

/-- A transaction starts, or a sibling in an enclave keeps it from starting. -/
theorem applyRtmBegin_next {n k : Nat} {s t : State} (h : applyRtmBegin n k s = .next t) :
    ∃ lp, s.findLp n = some lp ∧
      ((siblingInEnclaveBlocksTsx s lp = true ∧ t = s.onLp n LogicalProcessor.takeDueAbort) ∨
        (siblingInEnclaveBlocksTsx s lp = false ∧
          t = s.onLp n fun lp => lp.takeDueAbort.begin k)) := by
  unfold applyRtmBegin at h
  split at h
  · rename_i lp hlp
    refine ⟨lp, hlp, ?_⟩
    split at h <;> simp only [Host.Outcome.next.injEq] at h
    · exact .inl ⟨by assumption, h.symm⟩
    · exact .inr ⟨by simp_all, h.symm⟩
  · exact absurd h (refuse_ne_next _ _)

/-- A schedule leaves the executing logical processor or changes places with another one. -/
theorem applySchedule_next {n : Nat} {s t : State} (h : applySchedule n s = .next t) :
    ((s.cur.present ∧ s.cur.id = n) ∧ t = s) ∨
      (¬(s.cur.present ∧ s.cur.id = n) ∧
        ∃ lp, s.others.find? (fun lp => lp.present && lp.id == n) = some lp ∧
        t = { s with
          cur := lp, others := insertLp s.cur (s.others.filter fun lp => lp.id != n) }) := by
  unfold applySchedule at h
  split at h
  · simp only [Host.Outcome.next.injEq] at h
    exact .inl ⟨by assumption, h.symm⟩
  · refine .inr ⟨by assumption, ?_⟩
    split at h
    · rename_i lp hlp
      simp only [Host.Outcome.next.injEq] at h
      exact ⟨lp, hlp, h.symm⟩
    · exact absurd h (refuse_ne_next _ _)

/-! ### The topology (R22) -/

/-- Cores are counted by core and number alone. -/
theorem coreCount_congr {l l' : List LogicalProcessor}
    (h : l'.map (fun lp => (lp.core, lp.id)) = l.map fun lp => (lp.core, lp.id)) :
    coreCount l' = coreCount l := by
  have key (m : List LogicalProcessor) : coreCount m =
      (m.map fun lp => (lp.core, lp.id)).countP fun p =>
        (m.map fun lp => (lp.core, lp.id)).all fun q => q.1 != p.1 || decide (p.2 ≤ q.2) := by
    simp only [coreCount, List.countP_map, List.all_map]
    rfl
  rw [key, key, h]

/-- What the topology is read off: place, number, presence and configuration. -/
def topologyFields (lp : LogicalProcessor) : Bool × Nat × Nat × Cfg :=
  (lp.present, lp.core, lp.id, lp.cfg)

/-- Whether the topology is as R22 says depends on these four fields alone: a step that changes none of
them keeps it. -/
theorem State.topologyOk_congr {s t : State}
    (h : t.threads.map topologyFields = s.threads.map topologyFields) :
    t.topologyOk = s.topologyOk := by
  have lps (u : State) : u.lps.map topologyFields =
      (u.threads.map topologyFields).filter fun p => p.1 := by
    rw [State.lps, List.filter_map]; rfl
  have hl : t.lps.map topologyFields = s.lps.map topologyFields := by rw [lps, lps, h]
  have hc : coreCount t.lps = coreCount s.lps := by
    apply coreCount_congr
    have := congrArg (List.map fun p : Bool × Nat × Nat × Cfg => (p.2.1, p.2.2.1)) hl
    simpa [topologyFields, Function.comp_def] using this
  have on (u : State) (c : Nat) : (u.coreLps c).length =
      (u.lps.map topologyFields).countP fun p => p.2.1 == c := by
    rw [State.coreLps, ← List.countP_eq_length_filter, List.countP_map]; rfl
  have key (u : State) : u.topologyOk = (u.cur.present &&
      (u.lps.map topologyFields).all fun p =>
        decide (p.2.2.2.cores = coreCount u.lps) &&
          decide (p.2.2.2.threadsPerCore =
            (u.lps.map topologyFields).countP fun q => q.2.1 == p.2.1)) := by
    simp only [State.topologyOk, List.all_map, on]
    rfl
  have hcur : t.cur.present = s.cur.present := by
    have := congrArg (fun l => l.head?.map fun p : Bool × Nat × Nat × Cfg => p.1) h
    simpa [State.threads, topologyFields] using this
  rw [key, key, hl, hc, hcur]

/-- A reset or a load the machine accepts leaves it with the topology of R22: any change that gives each
logical processor its place and the configuration of the assignment does. -/
theorem topologyOk_of_accepts {s : State} {a : CfgAssignment} (h : s.accepts a = true)
    {f : LogicalProcessor → LogicalProcessor}
    (hf : ∀ lp, topologyFields (f lp) = (s.placed a lp, lp.core, lp.id, a.forLp lp.id)) :
    (s.onAll f).topologyOk = true := by
  have ha : (s.assigned a).topologyOk = true := by
    simp only [State.accepts, Bool.and_eq_true] at h
    exact h.2
  rw [← ha]
  apply State.topologyOk_congr
  simp only [State.assigned, State.onAll_threads, List.map_map]
  exact List.map_congr_left fun lp _ => hf lp

/-! ### The step -/

/-- What a turn of the executing logical processor can be: the abort of R374, or the meaning of the
instruction decoded at `ip`. -/
theorem runCur_next {s t : State} (h : runCur s = .next t) :
    (rtmMustAbort s.cur = true ∧ abortInProgress s = .next t) ∨
      (rtmMustAbort s.cur = false ∧
        ∃ i rest, fetch s = .instr i rest ∧ exec (select i s) s = .next t) := by
  unfold runCur at h
  split at h
  · exact .inl ⟨by assumption, h⟩
  · refine .inr ⟨by simp_all, ?_⟩
    unfold runInstr at h
    split at h
    · rename_i i rest hf
      exact ⟨i, rest, hf, h⟩
    · simp at h

/-- What a step can be: a turn with the queue empty, a turn the queue asks for, or an event. -/
theorem step_cases (s : State) :
    (s.pending = [] ∧ step s = runCur s) ∨
      (∃ rest, s.pending = .execute :: rest ∧ step s = runCur { s with pending := rest }) ∨
      (∃ e rest, s.pending = .event e :: rest ∧
        step s = applyEvent e { s with pending := rest }) := by
  unfold step
  split
  · exact .inl ⟨by assumption, rfl⟩
  · rename_i rest h
    exact .inr (.inl ⟨rest, h, rfl⟩)
  · rename_i e rest h
    exact .inr (.inr ⟨e, rest, h, rfl⟩)

end Sys2Proof.Machine
end

