-- ==== Sys2Proof/Tests/Slice0.lean ====
section
/-! SUPPORT. Tests: well-formedness (each check refuses an ill-formed term), decoding of words written
out from R130 and R134, vectors of `95_test_vectors.md` (named V-..), and for each obligation with
hypotheses a concrete state and operands that meet them (`test_witness_..`). -/

open Sys2Proof Sys2Proof.Machine

namespace Sys2Proof.Tests

/-! ### Small states -/

/-- A logical processor after reset with configuration `c`. -/
def cpu (c : Cfg) : LogicalProcessor := (lpAfterReset 0 0xFEE00900).resetTo c true

/-- The machine after reset, with this logical processor executing. -/
def run (lp : LogicalProcessor) : State := { State.reset with cur := lp }

/-- The operands of RDMSR. -/
def rd (c : Cfg) (idx : Word) : LogicalProcessor := { cpu c with ecx := idx }

/-- The operands of WRMSR. -/
def wr (c : Cfg) (idx : Word) (hi lo : Word) : LogicalProcessor :=
  { cpu c with ecx := idx, edx := hi, eax := lo }

/-- The operands of CPUID. -/
def leaf (c : Cfg) (a i : Word) : LogicalProcessor := { cpu c with eax := a, ecx := i }

/-- A value read off the state a step leads to. -/
def after {α : Type} (r : Result) (f : LogicalProcessor → α) : Option α :=
  (nextOf r).map fun t => f t.cur

/-- EDX and EAX, what RDMSR leaves. -/
def pair (lp : LogicalProcessor) : Word × Word := (lp.edx, lp.eax)

/-- The four outputs of CPUID. -/
def quad (lp : LogicalProcessor) : Word × Word × Word × Word := (lp.eax, lp.ebx, lp.ecx, lp.edx)

/-- A bound on every position follows from the 64 there are. -/
theorem bits_of_small {v : Quad} {p : Nat → Bool}
    (h : ∀ n < 64, v.getLsbD n = true → p n = true) : ∀ n, v.getLsbD n = true → p n = true := by
  intro n hn
  rcases Nat.lt_or_ge n 64 with hlt | hge
  · exact h n hlt hn
  · rw [BitVec.getLsbD_of_ge v n hge] at hn
    exact absurd hn Bool.false_ne_true

/-- Two values that agree on 64 positions but one agree on all but that one. -/
theorem bits_agree {u v : Quad} {k : Nat}
    (h : ∀ n < 64, n ≠ k → u.getLsbD n = v.getLsbD n) :
    ∀ n, n ≠ k → u.getLsbD n = v.getLsbD n := by
  intro n hn
  rcases Nat.lt_or_ge n 64 with hlt | hge
  · exact h n hlt hn
  · rw [BitVec.getLsbD_of_ge u n hge, BitVec.getLsbD_of_ge v n hge]

/-! ### Well-formedness: every check refuses an ill-formed term -/

/-- VERW with mod 3 takes no byte behind ModRM. -/
theorem test_wf_verw_too_long : Instr.wf (.verw ⟨3, 0, [0x90]⟩) = false := by decide

/-- VERW with mod 2 takes four displacement bytes. -/
theorem test_wf_verw_too_short : Instr.wf (.verw ⟨2, 0, [0x90]⟩) = false := by decide

/-- VERW with mod 0 and rm 4 takes a SIB byte, with base 5 four displacement bytes more. -/
theorem test_wf_verw_sib : Instr.wf (.verw ⟨0, 4, [0x25]⟩) = false ∧
    Instr.wf (.verw ⟨0, 4, [0x25, 1, 2, 3, 4]⟩) = true := by decide

/-- The three configurations of the vectors are well formed. -/
theorem test_cfgWf_vectors : cfgWf Cfg.a = true ∧ cfgWf Cfg.b = true ∧ cfgWf Cfg.c = true := by decide

/-- R33 item 5. -/
theorem test_cfgWf_edx11 : cfgWf { Cfg.a with c70Edx := 0xBC000E00 } = false := by decide

/-- R41. -/
theorem test_cfgWf_rfds : cfgWf { Cfg.a with archCap := 0x7A2E1082 } = false := by decide

/-- R273. -/
theorem test_cfgWf_l1d : cfgWf { Cfg.a with l1dFlushClearsFb := true } = false := by decide

/-- R427. -/
theorem test_cfgWf_gds : cfgWf { Cfg.a with gdsLockAtMcuLoad := true } = false := by decide

/-- R34. -/
theorem test_cfgWf_maxSubleaf : cfgWf { Cfg.a with c70Eax := 1 } = false := by decide

/-- R423. -/
theorem test_cfgWf_rtm : cfgWf { Cfg.a with resetRtmLocked := true } = false := by decide

/-- R22. -/
theorem test_cfgWf_threads : cfgWf { Cfg.a with threadsPerCore := 1 } = false := by decide

/-! ### Decoding: words written out from R130 and R134 -/

theorem test_decode_cpuid : decode [0x0F, 0xA2, 0x90] = .instr .cpuid [0x90] := by decide
theorem test_decode_rdmsr : decode [0x0F, 0x32] = .instr .rdmsr [] := by decide
theorem test_decode_wrmsr : decode [0x0F, 0x30] = .instr .wrmsr [] := by decide
theorem test_decode_verw_reg : decode [0x0F, 0x00, 0xEB] = .instr (.verw ⟨3, 3, []⟩) [] := by decide
theorem test_decode_verw_mem :
    decode [0x0F, 0x00, 0x6C, 0x24, 0x08, 0xC3] = .instr (.verw ⟨1, 4, [0x24, 0x08]⟩) [0xC3] := by
  decide
theorem test_decode_xbegin32 :
    decode [0xC7, 0xF8, 0x04, 0x03, 0x02, 0x01] = .instr (.xbegin (.rel32 0x01020304)) [] := by decide
theorem test_decode_xbegin16 :
    decode [0x66, 0xC7, 0xF8, 0x02, 0x01] = .instr (.xbegin (.rel16 0x0102)) [] := by decide
theorem test_decode_rdrand : decode [0x0F, 0xC7, 0xF0] = .instr (.rdrand .eax) [] := by decide
theorem test_decode_rdseed : decode [0x0F, 0xC7, 0xFF] = .instr (.rdseed .num7) [] := by decide
theorem test_decode_monitor : decode [0x0F, 0x01, 0xC8] = .instr .monitor [] := by decide
theorem test_decode_umonitor : decode [0xF3, 0x0F, 0xAE, 0xF1] = .instr (.umonitor .ecx) [] := by decide
theorem test_decode_umwait : decode [0xF2, 0x0F, 0xAE, 0xF3] = .instr (.umwait .ebx) [] := by decide
theorem test_decode_ret : decode [0xC3] = .instr .ret [] := by decide
theorem test_decode_ret_imm16 : decode [0xC2, 0x34, 0x12] = .instr (.retImm16 0x1234) [] := by decide

/-- R131: bytes of the helper instruction of the programs, a bare prefix, a cut instruction. -/
theorem test_decode_rejects :
    decode [0xB8, 0, 0, 0, 0] = .rejected .notOfThisSpec ∧
      decode [0x66, 0x0F, 0xA2, 0x90, 0x90] = .rejected .notOfThisSpec ∧
      decode [0x0F] = .rejected .truncated := by decide

/-- The table's numbers, first byte in the low bits. -/
theorem test_tableWord : decodeTableWord 16 0xA20F = some .cpuid ∧
    decodeTableWord 24 0x28000F = some (.verw ⟨0, 0, []⟩) ∧
    decodeTableWord 32 0xF0AE0FF3 = some (.umonitor .eax) ∧ decodeTableWord 8 0xC3 = some .ret := by
  decide

/-- R133: the rows of CPUID by EAX and ECX. -/
theorem test_select_cpuid :
    [leaf Cfg.a 7 0, leaf Cfg.a 7 2, leaf Cfg.a 7 3, leaf Cfg.a 7 1, leaf Cfg.a 6 0].map selectCpuid =
      [.cpuidLeaf7Sub0, .cpuidLeaf7Sub2, .cpuidLeaf7Invalid, .cpuidLeaf7Other, .cpuidOtherLeaf] := by
  decide

/-- R133: the rows of RDMSR by ECX. -/
theorem test_select_rdmsr :
    [266, 72, 73, 267, 291, 290, 271, 6913, 189, 27, 299].map selectRdmsr =
      [.rdmsrArchCapabilities, .rdmsrSpecCtrl, .rdmsrPredCmd, .rdmsrFlushCmd, .rdmsrMcuOptCtrl,
        .rdmsrTsxCtrl, .rdmsrTsxForceAbort, .rdmsrUarchMiscCtl, .rdmsrXapicDisableStatus,
        .rdmsrApicBase, .rdmsrOutside] := by decide

/-- R133: the rows of WRMSR by ECX; 79H has its own. -/
theorem test_select_wrmsr :
    [266, 72, 73, 267, 291, 290, 271, 6913, 189, 27, 299, 121].map selectWrmsr =
      [.wrmsrArchCapabilities, .wrmsrSpecCtrl, .wrmsrPredCmd, .wrmsrFlushCmd, .wrmsrMcuOptCtrl,
        .wrmsrTsxCtrl, .wrmsrTsxForceAbort, .wrmsrUarchMiscCtl, .wrmsrXapicDisableStatus,
        .wrmsrApicBase, .wrmsrOutside, .wrmsrMcheck] := by decide

/-! ### Reset -/

/-- `State.reset`, spelled out value by value, is what R420 makes of it. -/
theorem test_reset_is_resetTo :
    State.reset.cur = cpu Cfg.a ∧
      State.reset.others = [(lpAfterReset 1 0xFEE00800).resetTo Cfg.a true] := by decide

/-! ### CPUID (`95` 3.1) -/

/-- V-C1, V-C11. -/
theorem test_cpuid_sub0 :
    after (exec .cpuid (run { leaf Cfg.a 7 0 with cpl := 3 })) quad =
      some (2, 0x810, 0, 0xBC002E00) := by decide

/-- V-C7, V-C9, V-C10. -/
theorem test_cpuid_sub0_dynamic :
    after (exec .cpuidLeaf7Sub0 (run { leaf Cfg.a 7 0 with tsxCtrl := 2 })) quad =
        some (2, 0, 0, 0xBC002E00) ∧
      after (exec .cpuidLeaf7Sub0 (run { leaf Cfg.a 7 0 with tsxForceAbort := 4 })) quad =
        some (2, 0x810, 0, 0xBC002600) ∧
      after (exec .cpuidLeaf7Sub0 (run { leaf Cfg.a 7 0 with tsxForceAbort := 2 })) quad =
        some (2, 0, 0, 0xBC002E00) := by decide

/-- V-C2. -/
theorem test_cpuid_sub2 :
    after (exec .cpuidLeaf7Sub2 (run (leaf Cfg.a 7 2))) quad = some (0, 0, 0, 0xBF) := by decide

/-- V-C3, V-C4, V-C5. -/
theorem test_cpuid_invalid :
    [leaf Cfg.a 7 3, leaf Cfg.a 7 0xFFFFFFFF, leaf Cfg.b 7 2].map
        (fun lp => after (exec .cpuidLeaf7Invalid (run lp)) quad) =
      [some (0, 0, 0, 0), some (0, 0, 0, 0), some (0, 0, 0, 0)] := by decide

/-! ### RDMSR and WRMSR: the checks (`95` 3.2) -/

/-- V-M1, V-M3, V-M4: privilege, existence, direction. -/
theorem test_rdmsr_faults :
    [{ rd Cfg.a 0x48 with cpl := 3 }, rd Cfg.b 0x10A, rd Cfg.a 0x49, rd Cfg.a 0x10B].all
      (fun lp => faults (exec .rdmsr (run lp))) = true := by decide

/-- V-M5, V-M8, V-M10, V-M12: direction, a field not enumerated, bit 32, privilege. -/
theorem test_wrmsr_faults :
    [wr Cfg.a 0x10A 0 0, wr Cfg.a 0xBD 0 0, wr Cfg.b 0x48 0 4, wr Cfg.a 0x48 1 0,
        { wr Cfg.a 0x48 0 7 with cpl := 2 }].all
      (fun lp => faults (exec .wrmsr (run lp))) = true := by decide

/-- V-M6, V-M7: an index outside the spec is refused, after the privilege check. -/
theorem test_outside :
    refusalOf (exec .rdmsr (run (rd Cfg.a 0x6E0))) = some (.msrOutsideSpec 0x6E0) ∧
      refusalOf (exec .rdmsrOutside (run (rd Cfg.a 0x802))) = some (.msrOutsideSpec 0x802) ∧
      refusalOf (exec .wrmsrMcheck (run (wr Cfg.a 0x79 0 5))) = some (.msrOutsideSpec 0x79) ∧
      faults (exec .rdmsr (run { rd Cfg.a 0x6E0 with cpl := 3 })) = true := by decide

/-! ### The MSRs, one by one (`95` 3.3 to 3.7) -/

/-- V-A1. -/
theorem test_rdmsr_archCapabilities :
    after (exec .rdmsrArchCapabilities (run (rd Cfg.a 0x10A))) pair = some (0, 0x622E1082) := by decide

/-- V-A3. -/
theorem test_rdmsr_archCapabilities_after_load :
    (nextOf (applyEvent (.mcuLoad ⟨{ Cfg.a with archCap := 0x662E1082 }, []⟩)
        (run (rd Cfg.a 0x10A)))).bind (fun t => after (exec .rdmsr t) pair) =
      some (0, 0x662E1082) := by decide

/-- V-S2, V-S3, V-M9. -/
theorem test_wrmsr_specCtrl :
    after (exec .wrmsrSpecCtrl (run (wr Cfg.a 0x48 0 0x5FF))) (fun lp => lp.specCtrl) =
        some 0x5FF ∧
      faults (exec .wrmsrSpecCtrl (run (wr Cfg.a 0x48 0 0x200))) = true ∧
      faults (exec .wrmsrSpecCtrl (run (wr Cfg.a 0x48 0 0x800))) = true ∧
      after (exec .wrmsrSpecCtrl (run (wr Cfg.b 0x48 0 3))) (fun lp => lp.specCtrl) = some 3 := by
  decide

/-- V-S1. -/
theorem test_rdmsr_specCtrl :
    after (exec .rdmsrSpecCtrl (run (rd Cfg.a 0x48))) pair = some (0, 0) := by decide

/-- V-S5: the _U bit at CPL 3, the _S bit at CPL 0. -/
theorem test_specCtrl_modes :
    let lp := { cpu Cfg.a with specCtrl := 0x28 }
    (ipredDis { lp with cpl := 3 }, rrsbaActive { lp with cpl := 3 }, ipredDis lp, rrsbaActive lp) =
      (true, false, false, true) := by decide

/-- V-P1, V-P2, V-P3. -/
theorem test_wrmsr_predCmd :
    after (exec .wrmsrPredCmd (run (wr Cfg.a 0x49 0 1))) (fun lp => lp.events) = some [.ibpb] ∧
      after (exec .wrmsrPredCmd (run (wr Cfg.a 0x49 0 0))) (fun lp => lp.events) = some [] ∧
      faults (exec .wrmsrPredCmd (run (wr Cfg.a 0x49 0 3))) = true := by decide

/-- The configuration of V-F2. -/
def cfgF2 : Cfg := { Cfg.b with c70Edx := 0x30000000, archCap := 0x40000, l1dFlushClearsFb := true }

/-- V-F1, V-F2, V-F3. -/
theorem test_wrmsr_flushCmd :
    after (exec .wrmsrFlushCmd (run (wr Cfg.a 0x10B 0 1))) (fun lp => lp.events) =
        some [.l1dFlush false] ∧
      after (exec .wrmsrFlushCmd (run { wr cfgF2 0x10B 0 1 with mcuOptCtrl := 8 }))
        (fun lp => lp.events) = some [.l1dFlush true] ∧
      faults (exec .wrmsrFlushCmd (run (wr Cfg.a 0x10B 0 3))) = true := by decide

/-- V-U1. -/
theorem test_rdmsr_mcuOptCtrl :
    after (exec .rdmsrMcuOptCtrl (run (rd Cfg.a 0x123))) pair = some (0, 0x42) := by decide

/-- What a write of `v` leaves in IA32_MCU_OPT_CTRL that held `old`. -/
def mcuAfter (c : Cfg) (old : Quad) (v : Word) : Option Quad :=
  after (exec .wrmsrMcuOptCtrl (run { wr c 0x123 0 v with mcuOptCtrl := old })) (fun lp => lp.mcuOptCtrl)

/-- V-U2 to V-U7. -/
theorem test_wrmsr_mcuOptCtrl :
    [mcuAfter Cfg.a 0x42 0x100, mcuAfter Cfg.a 0x42 0x4B, mcuAfter Cfg.a 0x42 0x66,
        mcuAfter Cfg.a 0x44 0x42, mcuAfter Cfg.a 0x60 0x50,
        mcuAfter { Cfg.a with gdsLockRw := true } 0x40 0x70,
        mcuAfter { Cfg.a with gdsLockRw := true } 0x60 0x40] =
      [none, some 0x4B, some 0x42, some 0x44, some 0x60, some 0x60, some 0x60] := by decide

/-- V-U10, V-U11: a microcode load (which logical processors V-U11 leaves is `test_topology`). -/
theorem test_mcuLoad_mcuOptCtrl :
    [Cfg.a, { Cfg.a with hyperthreading := false, threadsPerCore := 1, gdsLockAtMcuLoad := true }].map
        (fun c => after (applyEvent (.mcuLoad ⟨c, []⟩) (run { cpu Cfg.a with mcuOptCtrl := 0x52 }))
          (fun lp => lp.mcuOptCtrl)) = [some 0x42, some 0x62] := by decide

/-- V-T1, V-T4, V-T5. -/
theorem test_rdmsr_tsxCtrl :
    after (exec .rdmsrTsxCtrl (run (rd Cfg.a 0x122))) pair = some (0, 0) ∧
      faults (exec .rdmsr (run (rd { Cfg.a with archCap := 0x622E1002 } 0x122))) = true ∧
      refusalOf (exec .rdmsr (run (rd Cfg.a 0x12B))) = some (.msrOutsideSpec 0x12B) := by decide

/-- V-T2, V-T3. -/
theorem test_wrmsr_tsxCtrl :
    after (exec .wrmsrTsxCtrl (run (wr Cfg.a 0x122 0 3))) (fun lp => lp.tsxCtrl) = some 3 ∧
      faults (exec .wrmsrTsxCtrl (run (wr Cfg.a 0x122 0 4))) = true := by decide

/-- V-X1, V-X11, V-X16. -/
theorem test_rdmsr_tsxForceAbort :
    after (exec .rdmsrTsxForceAbort (run (rd Cfg.a 0x10F))) pair = some (0, 1) ∧
      after (exec .rdmsrTsxForceAbort (run (rd Cfg.c 0x10F))) pair = some (0, 0) ∧
      faults (exec .rdmsrTsxForceAbort (run (rd Cfg.b 0x10F))) = true := by decide

/-- What a write of `v` leaves stored in IA32_TSX_FORCE_ABORT that stored `old`, and what it reads. -/
def tfaAfter (c : Cfg) (old : BitVec 3) (v : Word) : Option (BitVec 3 × Quad) :=
  after (exec .wrmsrTsxForceAbort (run { wr c 0x10F 0 v with tsxForceAbort := old }))
    fun lp => (lp.tsxForceAbort, tfaReadValue lp)

/-- V-X2 to V-X10, V-X12 to V-X15, V-X17. -/
theorem test_wrmsr_tsxForceAbort :
    [tfaAfter Cfg.a 0 0, tfaAfter Cfg.a 0 2, tfaAfter Cfg.a 0 4, tfaAfter Cfg.a 4 5,
        tfaAfter Cfg.a 4 6, tfaAfter Cfg.a 5 1, tfaAfter Cfg.a 5 0, tfaAfter Cfg.a 0 8,
        tfaAfter Cfg.a 0 6, tfaAfter Cfg.c 0 1, tfaAfter Cfg.c 0 2,
        tfaAfter { Cfg.c with illegalSetPolicy := .ignore } 0 2, tfaAfter Cfg.c 0 4,
        tfaAfter { Cfg.c with sdvSetRequiresEdx11 := false } 0 4,
        tfaAfter { Cfg.a with sdvSetRequiresEdx11 := false } 0 4, tfaAfter Cfg.a 2 3] =
      [some (0, 1), some (2, 3), some (4, 4), some (5, 5), some (6, 6), some (1, 1), some (0, 1),
        none, some (6, 6), some (1, 1), none, some (0, 0), none, some (4, 4), none,
        some (2, 3)] := by decide

/-- V-D1, V-D4. -/
theorem test_rdmsr_uarchMiscCtl :
    after (exec .rdmsrUarchMiscCtl (run (rd Cfg.a 0x1B01))) pair = some (0, 0) ∧
      faults (exec .rdmsrUarchMiscCtl
        (run (rd { Cfg.a with archCap := 0x622E0082 } 0x1B01))) = true := by decide

/-- V-D2, V-D3. -/
theorem test_wrmsr_uarchMiscCtl :
    after (exec .wrmsrUarchMiscCtl (run (wr Cfg.a 0x1B01 0 1))) (fun lp => (lp.uarchMiscCtl, doitmOn lp)) =
        some (1, true) ∧
      faults (exec .wrmsrUarchMiscCtl (run (wr Cfg.a 0x1B01 0 2))) = true ∧
      faults (exec .wrmsrUarchMiscCtl (run (wr Cfg.a 0x1B01 1 1))) = true := by decide

/-- V-L1. -/
theorem test_rdmsr_xapicDisableStatus :
    after (exec .rdmsrXapicDisableStatus (run (rd Cfg.a 0xBD))) pair = some (0, 0) := by decide

/-- EXTD and the lock after a write of IA32_APIC_BASE. -/
def apicAfter (lp : LogicalProcessor) : Option (Bool × Bool) :=
  after (exec .wrmsrApicBase (run lp)) fun t => (t.apicExtd, t.xapicDisabled)

/-- V-L3, V-L4, V-L5, and the refusal of R359. -/
theorem test_wrmsr_apicBase :
    [apicAfter (wr Cfg.a 0x1B 0 0xFEE00D00),
        apicAfter { wr Cfg.a 0x1B 0 0xFEE00900 with apicExtd := true, xapicDisabled := true },
        apicAfter (wr { Cfg.a with xapicLockOnExtd := false } 0x1B 0 0xFEE00D00)] =
      [some (true, true), none, some (true, false)] ∧
      faults (exec .wrmsr (run
        { wr Cfg.a 0x1B 0 0xFEE00900 with apicExtd := true, xapicDisabled := true })) = true ∧
      refusalOf (exec .wrmsrApicBase (run (wr Cfg.a 0x1B 0 0xFEE00800))) =
        some .apicBaseOtherFields := by decide

/-- IA32_APIC_BASE reads EXTD in bit 10 over the bits held (entry 28). -/
theorem test_rdmsr_apicBase :
    after (exec .rdmsrApicBase (run { rd Cfg.a 0x1B with apicExtd := true })) pair =
      some (0, 0xFEE00D00) := by decide

/-- Predicates: V-X5 and V-X12 (counter 3), V-U12 (SRBDS), V-U13 (IGN_UMONITOR). -/
theorem test_predicates :
    pmc3Usable { cpu Cfg.a with tsxForceAbort := 5 } = false ∧
      pmc3Usable { cpu Cfg.c with tsxForceAbort := 1 } = true ∧
      srbdsMitigated { cpu Cfg.a with mcuOptCtrl := 0x41, inEnclave := true } = true ∧
      srbdsMitigated { cpu Cfg.a with mcuOptCtrl := 0x41 } = false ∧
      ignUmonitor (cpu Cfg.a) = true ∧ ignUmonitor { cpu Cfg.a with mcuOptCtrl := 0x02 } = false := by
  decide

/-! ### The effect-only instructions (`95` 3.8) -/

/-- VERW on cfgA (FB_CLEAR without FB_CLEAR_DIS), with FB_CLEAR_DIS, and where nothing is enumerated. -/
theorem test_verw :
    [cpu Cfg.a, { cpu Cfg.a with mcuOptCtrl := 0x4A }, cpu Cfg.b].map
        (fun lp => after (exec (.verw ⟨3, 0, []⟩) (run lp)) (fun t => (t.events, t.ip))) =
      [some ([.mdClear true false], 3), some ([.mdClear false false], 3), some ([], 3)] := by decide

/-- XBEGIN with RTM_DISABLE: EAX 0, at the fallback address. -/
theorem test_xbegin_rtmDisable :
    after (exec (.xbegin (.rel32 0x10))
        (run { cpu Cfg.a with tsxForceAbort := 4, tsxCtrl := 1, eax := 5 }))
        (fun t => (t.eax, t.ip, t.events)) = some (0, 22, [.rtmAbort .rtmDisable]) := by decide

/-- XBEGIN that nothing forces (V-E8), and one that a negative displacement sends back. -/
theorem test_xbegin_not_forced :
    refusalOf (exec (.xbegin (.rel32 0x10)) (run { cpu Cfg.a with tsxForceAbort := 4 })) =
        some .xbeginNotForced ∧
      after (exec (.xbegin (.rel16 0xFFFB)) (run { cpu Cfg.a with ip := 7 })) (fun t => t.ip) =
        some 7 := by decide

/-- RDRAND and RDSEED write their destination only, 3 bytes long. -/
theorem test_random :
    after (exec (.rdrand .ecx) (run (leaf Cfg.a 5 6))) (fun t => (t.eax, t.edx, t.ip, t.effects)) =
        some (5, 0, 3, [.random false (some true)]) ∧
      after (exec (.rdseed .num4) (run { leaf Cfg.b 5 6 with mcuOptCtrl := 1 })) (fun t =>
        (t.eax, t.ecx, t.ip, t.effects)) = some (5, 6, 3, [.random true none]) := by decide

/-- MON_UMON_MITG and IGN_UMONITOR on MONITOR and UMONITOR. -/
theorem test_monitor :
    after (exec .monitor (run { cpu Cfg.a with mcuOptCtrl := 0x80 })) (fun t => (t.ip, t.effects)) =
        some (3, [.monitorFlush]) ∧
      after (exec (.umonitor .eax) (run (cpu Cfg.a))) (fun t => (t.ip, t.effects)) =
        some (4, [.umonitor false]) ∧
      after (exec (.umonitor .eax) (run { cpu Cfg.a with mcuOptCtrl := 0x02 })) (fun t => t.effects) =
        some [.umonitor true] := by decide

/-- With MON_UMON_MITG a flush may reach the sibling, and one in another core of the same module, but not
one that is far or that the package has not (R379); without it, none. -/
theorem test_monitor_reach :
    let lp := { cpu Cfg.a with mcuOptCtrl := 0x80 }
    let t := lpAfterReset 1 0xFEE00800
    [t, { t with core := 1 }, { t with core := 1, coreModule := 1 }, { t with present := false }].map
        (monitorFlushMayReach lp) = [true, true, false, false] ∧
      monitorFlushMayReach (cpu Cfg.a) t = false := by decide

/-- UMWAIT and RET complete; RET notes RSBA, RRSBA, PBRSB_NO of the configuration. -/
theorem test_umwait_ret :
    after (exec (.umwait .eax) (run (cpu Cfg.a))) (fun t => t.ip) = some 4 ∧
      after (exec .ret (run (cpu Cfg.a))) (fun t => t.effects) = some [.ret false true false] ∧
      after (exec (.retImm16 8) (run (cpu Cfg.a))) (fun t => t.effects) =
        some [.ret false true false] := by decide

/-! ### Events -/

/-- The two logical processors of `State.reset` with the sibling changed. -/
def beside (f : LogicalProcessor → LogicalProcessor) : State :=
  { State.reset with others := State.reset.others.map f }

/-- V-U8: the mitigation is off only with the bit set on both logical processors. -/
theorem test_gds_both :
    gdsMitigationDisabled (run { cpu Cfg.a with mcuOptCtrl := 0x50 }) 0 = false ∧
      gdsMitigationDisabled { beside (fun lp => { lp with mcuOptCtrl := 0x50 }) with
        cur := { cpu Cfg.a with mcuOptCtrl := 0x50 } } 0 = true := by decide

/-- An enclave entry aborts the sibling's transaction and records the overwrite (R375, R376). -/
theorem test_enclaveEnter :
    (nextOf (applyEvent (.enclaveEnter 0)
        (beside fun lp => { lp with inRtm := true, rtmFallback := 64 }))).map
        (fun t => (t.cur.inEnclave, t.lps.map fun lp => (lp.ip, lp.inRtm, lp.events))) =
      some (true, [(0, false, [.enclaveBufferOverwrite]),
        (64, false, [.rtmAbort .siblingEnclave])]) := by decide

/-- The abort of R374 comes before instructions outside the spec and before the transaction ends. -/
theorem test_abort_before_input :
    let s := run { cpu Cfg.a with inRtm := true, rtmFallback := 64, eax := 9 }
    after (applyEvent (.rtmEnd 0) s) (fun t => (t.eax, t.ip, t.inRtm, t.events)) =
        some (0, 64, false, [.rtmAbort .forceAbort]) ∧
      after (applyEvent (.software 0 1 2 3 4 80) s) (fun t => (t.eax, t.ip, t.inRtm, t.events)) =
        some (1, 80, false, [.rtmAbort .forceAbort]) := by decide

/-- R22: a reset to cfgB takes the sibling out of the package, where it cannot be scheduled; V-U11 does so
too; V-R3 brings it back. -/
theorem test_topology :
    let one := { Cfg.a with hyperthreading := false, threadsPerCore := 1, gdsLockAtMcuLoad := true }
    let lps := fun r => (nextOf r).map fun t => t.lps.map fun lp => lp.id
    lps (applyEvent (.reset ⟨Cfg.b, []⟩) State.reset) = some [0] ∧
      lps (applyEvent (.mcuLoad ⟨one, []⟩) State.reset) = some [0] ∧
      refusalOf (applyEvent (.schedule 1) (State.reset.assigned ⟨Cfg.b, []⟩)) =
        some (.noSuchLogicalProcessor 1) ∧
      lps (applyEvent (.mcuLoad ⟨Cfg.a, []⟩) (State.reset.assigned ⟨Cfg.b, []⟩)) = some [0, 1] := by
  decide

/-- R22: a configuration that asks for more cores or threads than there are is refused. -/
theorem test_topology_refused :
    State.reset.accepts ⟨{ Cfg.a with cores := 2 }, []⟩ = false ∧
      State.reset.accepts ⟨{ Cfg.a with threadsPerCore := 3 }, []⟩ = false ∧
      State.reset.accepts ⟨{ Cfg.b with cores := 0 }, []⟩ = false ∧
      State.reset.accepts ⟨Cfg.a, [(1, Cfg.b)]⟩ = false := by decide

/-- GDS_MITG_LOCK set (V-U6's 60H), a load that drops ARCH_CAP[25], 0 read and the lock held; and a load
that enumerates it again finds it set (R299, R427). -/
theorem test_gds_lock_held :
    let dropped := { Cfg.a with archCap := 0x602E1082 }
    after (applyEvent (.mcuLoad ⟨dropped, []⟩) (run { cpu Cfg.a with mcuOptCtrl := 0x60 }))
        (fun lp => (lp.mcuOptCtrl, lp.gdsLockHeld)) = some (0x40, true) ∧
      after (applyEvent (.mcuLoad ⟨Cfg.a, []⟩)
          (run { cpu dropped with gdsLockHeld := true }))
        (fun lp => (lp.mcuOptCtrl, lp.gdsLockHeld)) = some (0x62, false) := by decide

/-- RTM_LOCKED and LEGACY_XAPIC_DISABLED set, dropped by a load, and enumerated again by another, which gives
them their reset values (R426, R427 row 3). -/
theorem test_load_drops_and_renews :
    let locked := { cpu Cfg.a with mcuOptCtrl := 0x44, apicExtd := true, xapicDisabled := true }
    let dropped := { Cfg.a with mcuRtmBits := false, archCap := 0x620E1082 }
    let s := { run locked with pending := [.event (.mcuLoad ⟨dropped, []⟩), .event (.mcuLoad ⟨Cfg.a, []⟩)] }
    after (step s) (fun lp => (lp.mcuOptCtrl, lp.xapicDisabled)) = some (0x40, false) ∧
      ((nextOf (step s)).bind fun t => after (step t) fun lp => (lp.mcuOptCtrl, lp.xapicDisabled)) =
        some (0x42, false) := by decide

/-- Where IA32_XAPIC_DISABLE_STATUS does not exist a stored lock reads 0: EXTD can be cleared (R359, R420; and
V-L10, "no lock bit exists"), and a load that enumerates it neither before nor after keeps EXTD. -/
theorem test_lock_not_enumerated :
    let c := { Cfg.a with archCap := 0x620E1082 }
    let lp := { wr c 0x1B 0 0xFEE00900 with xapicDisabled := true }
    apicAfter { lp with apicExtd := true } = some (false, true) ∧
      after (applyEvent (.mcuLoad ⟨c, []⟩) (run lp)) (fun t => (t.apicExtd, t.xapicDisabled)) =
        some (false, true) ∧ lpOk lp = true := by decide

/-- The fault carries the unchanged state (R392). -/
theorem test_fault_carries_state :
    exec .rdmsr (run { rd Cfg.a 0x48 with cpl := 3, ip := 7 }) =
      .fault (.gp 0 (run { rd Cfg.a 0x48 with cpl := 3, ip := 7 })) := rfl

/-- A transaction in progress aborts before the next instruction in FORCE_ABORT_RTM mode (R374). -/
theorem test_abort_in_progress :
    after (step (run { cpu Cfg.a with inRtm := true, rtmFallback := 64, eax := 9 }))
      (fun t => (t.eax, t.ip, t.inRtm)) = some (0, 64, false) := by decide

/-- V-L6: MCHECK sets the lock in x2APIC mode. -/
theorem test_mcheck :
    after (applyEvent (.mcheckComplete 0) (run { cpu Cfg.a with apicExtd := true }))
      (fun lp => lp.xapicDisabled) = some true := by decide

/-- Scheduling changes places with the sibling and keeps the order of the rest. -/
theorem test_schedule :
    (nextOf (applyEvent (.schedule 1) State.reset)).map (fun t => t.lps.map fun lp => lp.id) =
      some [1, 0] := by decide

/-! ### Witnesses: states and operands that meet the hypotheses of the statements -/

/-- DecodeInvertsEncode: an operand with SIB and displacement, and the greatest RET operand. -/
theorem test_witness_DecodeInvertsEncode :
    Instr.wf (.verw ⟨0, 4, [0x25, 1, 2, 3, 4]⟩) = true ∧ Instr.wf (.retImm16 0xFFFF) = true := by decide

theorem test_witness_EncodeInvertsDecode :
    decode [0x66, 0xC7, 0xF8, 0x80, 0xFF, 0x0F] = .instr (.xbegin (.rel16 0xFF80)) [0x0F] := by decide

/-- OtherBytesAreRefused: no encoding is empty, so no bytes begin with none; and reset holds no program. -/
theorem test_witness_OtherBytesAreRefused :
    (∀ (i : Instr) (rest : List Byte), i.wf = true → ([] : List Byte) ≠ encode i ++ rest) ∧
      State.reset.pending = [] ∧ rtmMustAbort State.reset.cur = false ∧
      decode (Memory.bytesAt State.reset.code State.reset.cur.ip maxInstrBytes) =
        .rejected .truncated := by
  refine ⟨?_, by decide, by decide, by decide⟩
  intro i rest _ h
  have h0 := (List.append_eq_nil_iff.1 h.symm).1
  cases i <;> simp [encode, Instr.base, encodeBase] at h0
  unfold encodeXbegin at h0
  split at h0 <;> simp at h0

/-- StepRunsDecodedInstruction and LoadedWordRuns: CPUID placed by `withFetchWord`. -/
theorem test_witness_StepRunsDecodedInstruction :
    let s := State.reset.withFetchWord 16 0xA20F
    rtmMustAbort s.cur = false ∧ s.pending = [] ∧
      decode (Memory.bytesAt s.code s.cur.ip maxInstrBytes) = .instr .cpuid [0, 0, 0, 0, 0, 0] ∧
      ({ s with pending := [.execute] }).pending = .execute :: [] ∧
      ({ s with pending := [.event (.init 0)] }).pending = .event (.init 0) :: [] := by decide

theorem test_witness_SelectorRowsAgree :
    rowSelects .rdmsrSpecCtrl (rd Cfg.a 0x48) = true ∧
      rowSelects .rdmsrSpecCtrl (rd Cfg.a 0x49) = false ∧ Instr.base .wrmsr = .wrmsr := by decide

theorem test_witness_PlacedEncodingRuns :
    Instr.wf (.verw ⟨2, 4, [0x24, 0, 0, 0, 1]⟩) = true ∧ State.reset.pending = [] ∧
      rtmMustAbort State.reset.cur = false ∧ (9 : Nat) ≥ State.reset.cur.ip + 8 := by decide

/-- LoadedWordRuns: the shortest and the longest width. -/
theorem test_witness_LoadedWordRuns :
    decodeTableWord 8 0xC3 = some .ret ∧
      decodeTableWord 64 0x04030201252C000F = some (.verw ⟨0, 4, [0x25, 1, 2, 3, 4]⟩) ∧
      State.reset.pending = [] ∧ rtmMustAbort State.reset.cur = false := by decide

/-- The three statements over `exec i s = .next t`: an instruction of each kind completes. -/
theorem test_witness_frames :
    (∃ t, exec .cpuid (run (leaf Cfg.a 7 0)) = .next t) ∧
      (∃ t, exec .wrmsrSpecCtrl (run (wr Cfg.a 0x48 0 1)) = .next t) ∧
      (∃ t, exec (.xbegin (.rel32 0)) (run (cpu Cfg.a)) = .next t) ∧
      (∃ t, exec .ret (run (cpu Cfg.a)) = .next t) :=
  ⟨⟨_, rfl⟩, ⟨_, rfl⟩, ⟨_, rfl⟩, ⟨_, rfl⟩⟩

/-- InstructionPointerRule: one that completes, one that faults. -/
theorem test_witness_InstructionPointerRule :
    after (exec .rdmsr (run (rd Cfg.a 0x48))) (fun lp => lp.ip) = some 2 ∧
      faults (exec .rdmsr (run { rd Cfg.a 0x48 with cpl := 3 })) = true := by decide

theorem test_witness_CpuidLeaf7 :
    (leaf Cfg.a 7 0).eax = 7 ∧ (leaf Cfg.a 7 0).ecx = 0 ∧
      (leaf Cfg.a 7 2).eax = 7 ∧ (leaf Cfg.a 7 2).ecx = 2 ∧ 2 ≤ (leaf Cfg.a 7 2).cfg.maxSubleaf7 := by decide

/-- InvalidSubleafReturnsZeros: the first invalid subleaf, the last, and a configuration whose subleaf
2 is not valid. -/
theorem test_witness_InvalidSubleafReturnsZeros :
    (leaf Cfg.a 7 3).cfg.maxSubleaf7 < (leaf Cfg.a 7 3).ecx.toNat ∧
      (leaf Cfg.a 7 0xFFFFFFFF).cfg.maxSubleaf7 < 0xFFFFFFFF ∧ Cfg.b.maxSubleaf7 < 2 := by decide

/-- OtherLeavesReturnTheConfiguration: subleaf 1, the greatest valid one, and a leaf beside 7. -/
theorem test_witness_OtherLeaves :
    let c : Cfg := { Cfg.a with maxSubleaf7 := 3, c70Eax := 3 }
    (leaf c 7 1).ecx ≠ 0 ∧ (leaf c 7 1).ecx ≠ 2 ∧ (leaf c 7 1).ecx.toNat ≤ c.maxSubleaf7 ∧
      (leaf c 7 3).ecx.toNat ≤ c.maxSubleaf7 ∧ (leaf c 7 3).ecx ≠ 2 ∧ (leaf c 8 0).eax ≠ 7 := by decide

theorem test_witness_PrivilegeIsCheckedFirst :
    let lp := { rd Cfg.a 0x6E0 with cpl := 1 }
    Instr.base .rdmsrOutside = .rdmsr ∧ rowSelects .rdmsrOutside lp = true ∧ lp.cpl ≠ 0 := by decide

theorem test_witness_AbsentMsrFaults :
    (rd Cfg.b 0x10A).ecx = msrIndex .archCapabilities ∧
      msrExists .archCapabilities (rd Cfg.b 0x10A).cfg = false ∧
      rdmsrRow .archCapabilities = .rdmsrArchCapabilities := by decide

/-- OutsideIndexIsRefused: the neighbours of 48H and 49H, 79H, and the ends of the x2APIC range. -/
theorem test_witness_OutsideIndexIsRefused :
    let l : List Word := [0x1B, 0x48, 0x49, 0xBD, 0x10A, 0x10B, 0x10F, 0x122, 0x123, 0x1B01]
    (rd Cfg.a 0x47).ecx ∉ l ∧ (rd Cfg.a 0x4A).ecx ∉ l ∧ (rd Cfg.a 0x79).ecx = 0x79 ∧
      (rd Cfg.a 0x47).cpl = 0 ∧ (0x802 : Word).toNat = 2050 ∧ (0x83F : Word).toNat = 2111 := by decide

theorem test_witness_WrongDirectionAlwaysFaults :
    (rd Cfg.a 0x49).ecx = 0x49 ∧ (rd Cfg.a 0x10B).ecx = 0x10B ∧ (wr Cfg.a 0x10A 0 0).ecx = 0x10A ∧
      (wr Cfg.a 0xBD 0 0).ecx = 0xBD := by decide

/-- ReservedBitsFault: the lowest and the highest reserved position, and a field not enumerated. -/
theorem test_witness_ReservedBitsFault :
    ((edxEax (wr Cfg.a 0x122 0 4)).getLsbD 2 = true ∧ bitMayBeSet .tsxCtrl Cfg.a 2 = false) ∧
      ((edxEax (wr Cfg.a 0x122 0x80000000 0)).getLsbD 63 = true ∧
        bitMayBeSet .tsxCtrl Cfg.a 63 = false) ∧
      ((edxEax (wr Cfg.b 0x48 0 4)).getLsbD 2 = true ∧ bitMayBeSet .specCtrl Cfg.b 2 = false) := by
  decide

/-- FaultCausesAreExactlySix: one access for each cause. -/
theorem test_witness_FaultCausesAreExactlySix :
    [{ wr Cfg.a 0x48 0 0 with cpl := 3 }, wr Cfg.b 0x122 0 0, wr Cfg.a 0xBD 0 0, wr Cfg.a 0x48 0 0x200,
        wr Cfg.c 0x10F 0 2,
        { wr Cfg.a 0x1B 0 0xFEE00900 with apicExtd := true, xapicDisabled := true }].all
      (fun lp => faults (exec .wrmsr (run lp))) = true := by decide

/-- RdmsrReturnsTheStoredValue: each of the eight registers that can be read. -/
theorem test_witness_RdmsrReturnsTheStoredValue :
    ∀ m ∈ [Msr.specCtrl, .xapicDisableStatus, .archCapabilities, .tsxForceAbort, .tsxCtrl, .mcuOptCtrl,
        .uarchMiscCtl, .apicBase],
      (rd Cfg.a (msrIndex m)).ecx = msrIndex m ∧ (rd Cfg.a (msrIndex m)).cpl = 0 ∧
        msrExists m (rd Cfg.a (msrIndex m)).cfg = true ∧
        m ≠ .predCmd ∧ m ≠ .flushCmd := by decide

theorem test_witness_ReadingTwiceGivesTheSame :
    ∃ t, exec .rdmsr (run (rd Cfg.a 0x10F)) = .next t := ⟨_, rfl⟩

theorem test_witness_WritingBackChangesNothing :
    lpOk (rd Cfg.a 0x123) = true ∧ (rd Cfg.a 0x123).ecx = msrIndex .mcuOptCtrl ∧
      msrClass .mcuOptCtrl = .readWrite ∧
      ∃ t, exec .rdmsr (run (rd Cfg.a 0x123)) = .next t :=
  ⟨by decide, by decide, by decide, _, rfl⟩

/-- PlainRegistersTakeTheValue: the greatest value of each register on cfgA. -/
theorem test_witness_PlainRegistersTakeTheValue :
    (∀ n, (edxEax (wr Cfg.a 0x48 0 0x5FF)).getLsbD n = true → specCtrlBitEnumerated Cfg.a n = true) ∧
      msrExists .specCtrl Cfg.a = true ∧ msrExists .tsxCtrl Cfg.a = true ∧
      (wr Cfg.a 0x122 0 3).eax.toNat ≤ 3 ∧ msrExists .uarchMiscCtl Cfg.a = true ∧
      (wr Cfg.a 0x1B01 0 1).eax.toNat ≤ 1 ∧ (wr Cfg.a 0x1B01 0 1).edx = 0 ∧ (cpu Cfg.a).cpl = 0 :=
  ⟨bits_of_small (by decide), by decide, by decide, by decide, by decide, by decide, by decide,
    by decide⟩

theorem test_witness_CommandsAppendOneRecord :
    Cfg.a.c70Edx.getLsbD 26 = true ∧ Cfg.a.c70Edx.getLsbD 28 = true ∧
      (wr Cfg.a 0x49 0 1).eax = 1 ∧ (wr Cfg.a 0x49 0 0).eax = 0 ∧ (wr Cfg.a 0x49 0 1).edx = 0 ∧
      (wr Cfg.a 0x49 0 1).cpl = 0 ∧ (wr Cfg.a 0x10B 0 1).eax = 1 := by decide

/-- L1dFlushIgnoresFbClearDis: cfgF2, where the record says the fill buffers were cleared. -/
theorem test_witness_L1dFlushIgnoresFbClearDis :
    let lp := wr cfgF2 0x10B 0 1
    lp.cpl = 0 ∧ lp.ecx = 0x10B ∧ lp.cfg.c70Edx.getLsbD 28 = true ∧ lp.edx = 0 ∧ lp.eax = 1 ∧
      cfgWf lp.cfg = true := by decide

/-- McuOptCtrlAfterWrite: every implemented bit set at once. -/
theorem test_witness_McuOptCtrlAfterWrite :
    (wr Cfg.a 0x123 0 0xFF).cpl = 0 ∧ (wr Cfg.a 0x123 0 0xFF).ecx = 0x123 ∧
      msrExists .mcuOptCtrl Cfg.a = true ∧
      ∀ n, (edxEax (wr Cfg.a 0x123 0 0xFF)).getLsbD n = true → mcuBitEnumerated Cfg.a n = true :=
  ⟨by decide, by decide, by decide, bits_of_small (by decide)⟩

/-- TsxForceAbortAfterWrite: a bad bit under each policy, and none. -/
theorem test_witness_TsxForceAbortAfterWrite :
    Cfg.c.c70Edx.getLsbD 13 = true ∧ (wr Cfg.c 0x10F 0 7).eax.toNat ≤ 7 ∧
      (wr Cfg.c 0x10F 0 7).edx = 0 ∧ (wr Cfg.c 0x10F 0 7).ecx = 0x10F ∧ (wr Cfg.c 0x10F 0 7).cpl = 0 ∧
      tfaIllegalBit1 (edxEax (wr Cfg.c 0x10F 0 2)) (wr Cfg.c 0x10F 0 2) = true ∧
      Cfg.c.illegalSetPolicy = .gp ∧ ({ Cfg.c with illegalSetPolicy := .ignore }).illegalSetPolicy = .ignore ∧
      tfaIllegalBit1 (edxEax (wr Cfg.a 0x10F 0 6)) (wr Cfg.a 0x10F 0 6) = false ∧
      tfaIllegalBit2 (edxEax (wr Cfg.a 0x10F 0 6)) (wr Cfg.a 0x10F 0 6) = false := by decide

/-- ApicBaseAfterWrite: the two operands of V-L3 and V-L5, and one that changes another field. -/
theorem test_witness_ApicBaseAfterWrite :
    (∀ n, n ≠ 10 → (edxEax (wr Cfg.a 0x1B 0 0xFEE00D00)).getLsbD n =
        (cpu Cfg.a).apicOther.getLsbD n) ∧
      (cpu Cfg.a).xapicDisabled = false ∧ (edxEax (wr Cfg.a 0x1B 0 0xFEE00D00)).getLsbD 10 = true ∧
      (∃ n, n ≠ 10 ∧ (edxEax (wr Cfg.a 0x1B 0 0xFEE00800)).getLsbD n ≠
        (cpu Cfg.a).apicOther.getLsbD n) :=
  ⟨bits_agree (by decide), by decide, by decide, 8, by decide, by decide⟩

theorem test_witness_LockedExtdCannotBeCleared :
    let lp := { wr Cfg.a 0x1B 0 0xFEE00900 with apicExtd := true, xapicDisabled := true }
    lp.ecx = 0x1B ∧ legacyXapicDisabled lp = true ∧ (edxEax lp).getLsbD 10 = false ∧ lpOk lp = true ∧
      ∀ n, n ≠ 10 → (edxEax lp).getLsbD n = lp.apicOther.getLsbD n :=
  ⟨by decide, by decide, by decide, by decide, bits_agree (by decide)⟩

theorem test_witness_SpecCtrlIsPerLogicalProcessor :
    ∃ t, exec .wrmsrSpecCtrl (run (wr Cfg.a 0x48 0 0x5FF)) = .next t := ⟨_, rfl⟩

theorem test_witness_RtmLockedHoldsRtmAllowAtZero :
    let lp := { wr Cfg.a 0x123 0 0x42 with mcuOptCtrl := 0x44 }
    lpOk lp = true ∧ lp.cpl = 0 ∧ lp.cfg.mcuRtmBits = true ∧ lp.mcuOptCtrl.getLsbD 2 = true ∧
      (∀ n, (edxEax lp).getLsbD n = true → mcuBitEnumerated lp.cfg n = true) ∧
      ∃ t, exec .wrmsrMcuOptCtrl (run lp) = .next t :=
  ⟨by decide, by decide, by decide, by decide, bits_of_small (by decide), _, rfl⟩

/-- XbeginAbortsExactlyWhenForced: none of the causes; the sibling alone. -/
theorem test_witness_XbeginAbortsExactlyWhenForced :
    let lp := { cpu Cfg.a with tsxForceAbort := 4 }
    xbeginCause (run lp) = none ∧
      xbeginCause { beside (fun t => { t with inEnclave := true }) with cur := lp } =
        some .siblingEnclave := by decide

theorem test_witness_RtmDisableAbortsXbegin :
    msrExists .tsxCtrl Cfg.a = true ∧ ({ cpu Cfg.a with tsxCtrl := 1 }).tsxCtrl.getLsbD 0 = true ∧
      (cpu Cfg.a).tsxCtrl.getLsbD 0 = false := by decide

theorem test_witness_ForceAbortModeRule :
    forceAbortRtm (cpu Cfg.a) = true ∧ cfgWf (cpu Cfg.a).cfg = true ∧
      (c70Edx (cpu Cfg.a)).getLsbD 11 = true ∧
      ∃ t, exec .wrmsrTsxForceAbort (run (wr Cfg.a 0x10F 0 4)) = .next t :=
  ⟨by decide, by decide, by decide, _, rfl⟩

theorem test_witness_TransactionInProgressAborts :
    (cpu Cfg.a).inRtm = false ∧ ({ cpu Cfg.a with inRtm := true }).inRtm = true ∧
      forceAbortRtm { cpu Cfg.a with inRtm := true } = true ∧
      forceAbortRtm { cpu Cfg.a with inRtm := true, tsxForceAbort := 4 } = false ∧
      (run { cpu Cfg.a with inRtm := true }).pending = [] := by decide

/-- The statements on resets and loads: one configuration for both logical processors, one each, one that
leaves a single logical processor; and one refused for each reason. -/
theorem test_witness_resets_and_loads :
    State.reset.accepts ⟨Cfg.a, []⟩ = true ∧
      State.reset.accepts
        ⟨Cfg.a, [(1, { Cfg.b with hyperthreading := true, threadsPerCore := 2 })]⟩ = true ∧
      State.reset.accepts ⟨Cfg.b, []⟩ = true ∧
      (∃ lp ∈ State.reset.threads, cfgWf (CfgAssignment.forLp
        ⟨Cfg.a, [(1, { Cfg.a with threadsPerCore := 1 })]⟩ lp.id) = false) ∧
      (State.reset.assigned ⟨{ Cfg.a with cores := 2 }, []⟩).topologyOk = false ∧
      cfgWf Cfg.b = true ∧ State.reset.numbersOk = true ∧ State.reset.topologyOk = true ∧
      (∃ t, applyEvent (.reset ⟨Cfg.b, []⟩) State.reset = .next t) :=
  ⟨by decide, by decide, by decide, by decide, by decide, by decide, by decide, by decide, _, rfl⟩

/-- MicrocodeLoadKeepsEnumeratedFields: fields kept, fresh and dropped. -/
theorem test_witness_MicrocodeLoadKeepsEnumeratedFields :
    msrExists .tsxCtrl Cfg.a = true ∧ msrExists .tsxCtrl Cfg.b = false ∧
      msrExists .xapicDisableStatus Cfg.a = true ∧ msrExists .xapicDisableStatus Cfg.b = false ∧
      msrExists .tsxForceAbort Cfg.b = false ∧ msrExists .uarchMiscCtl Cfg.b = false := by decide

/-- The statements on events of a numbered logical processor: both numbers, and one of none. -/
theorem test_witness_events :
    State.reset.hasLp 0 = true ∧ State.reset.hasLp 1 = true ∧ State.reset.hasLp 2 = false ∧
      State.reset.numbersOk = true ∧ (State.reset.findLp 1).isSome = true := by decide

/-- EnclaveEntryAbortsSiblings: a sibling in an enclave blocks a transaction, none does not; the sibling of
logical processor 1 stands in the clause of the abort. -/
theorem test_witness_EnclaveEntryAbortsSiblings :
    siblingInEnclaveBlocksTsx (beside fun t => { t with inEnclave := true }) State.reset.cur = true ∧
      siblingInEnclaveBlocksTsx State.reset State.reset.cur = false ∧
      (State.reset.findLp 0).isSome = true ∧ (State.reset.findLp 1).map (fun lp => lp.core) = some 0 ∧
      State.reset.cur.present = true ∧ State.reset.cur.core = 0 ∧
      taaSgxBehaviour State.reset.cur.cfg = true ∧ State.reset.cur.cfg.hyperthreading = true := by
  decide

/-- McheckCompletionSetsTheLock: the refused write. -/
theorem test_witness_McheckCompletionSetsTheLock :
    (wr Cfg.a 0x79 0 0).cpl = 0 ∧ (wr Cfg.a 0x79 0 0).ecx = 0x79 := by decide

/-- EveryStepKeepsTheInvariant, LocksAreOneWay, EventHistoryIsAppendOnly and
EnclavesAndTransactionsStayApart: a step that completes from a state with all of them, with the locks
at 1. -/
theorem test_witness_invariants :
    let lp := { wr Cfg.a 0x123 0 0 with
      mcuOptCtrl := 0x64, apicExtd := true, xapicDisabled := true, events := [.ibpb] }
    let s := (run lp).withFetchWord 16 0x300F
    s.ok = true ∧ s.numbersOk = true ∧ s.rtmIsolated = true ∧
      (∀ a q, s.pending ≠ .event (.reset a) :: q) ∧ (∀ a q, s.pending ≠ .event (.mcuLoad a) :: q) ∧
      after (step s) (fun t => (t.mcuOptCtrl, t.xapicDisabled, t.events)) =
        some (0x24, true, [.ibpb]) ∧
      gdsLocked lp = true ∧ (lp.cfg.mcuRtmBits = true ∧ lp.mcuOptCtrl.getLsbD 2 = true) ∧
      legacyXapicDisabled lp = true ∧ archCapBit lp.cfg 25 = true ∧ archCapBit Cfg.b 25 = false ∧ lpOk (cpu Cfg.b) = true :=
  ⟨by decide, by decide, by decide, fun _ _ => by simp [run, State.reset, State.withFetchWord],
    fun _ _ => by simp [run, State.reset, State.withFetchWord], by decide, by decide, by decide,
    by decide, by decide, by decide, by decide⟩

/-- ModesDoNotReachTheRegisters: two logical processors that differ in IA32_SPEC_CTRL and the mode bits of
IA32_MCU_OPT_CTRL. -/
theorem test_witness_ModesDoNotReachTheRegisters :
    let lp := rd Cfg.a 0x10F
    apartInModes lp { lp with specCtrl := 1, mcuOptCtrl := 0x43, events := [.ibpb] } ∧
      Instr.base .rdmsrTsxForceAbort = .rdmsr ∧
      ¬(lp.ecx = 0x48 ∨ lp.ecx = 0x123 ∨ lp.ecx = 0x1B01) := by
  refine ⟨⟨rfl, ?_⟩, rfl, by decide⟩
  intro n hn
  exact bits_agree (u := 0x43) (v := 0x42) (k := 0) (by decide) n (by rintro rfl; simp at hn)

end Sys2Proof.Tests
end

section
/-! CPUID leaf 07H with an invalid subleaf (R163). -/

namespace Sys2Proof.Machine

/-! ### Which subleaf is valid, and what CPUID outputs for one that is not -/

/-- The validity test fails exactly above the greatest valid subleaf, as unsigned numbers (R34, R163). -/
theorem subleafValid_eq_false_iff {lp : LogicalProcessor} :
    subleafValid lp = false ↔ lp.cfg.maxSubleaf7 < lp.ecx.toNat := by
  rw [subleafValid, decide_eq_false_iff_not, Nat.not_le]

theorem cpuidOut_of_invalid_subleaf {lp : LogicalProcessor} (hleaf : lp.eax = 7)
    (hsub : subleafValid lp = false) : cpuidOut lp = ⟨0, 0, 0, 0⟩ := by
  rw [cpuidOut, if_pos hleaf, if_pos hsub]

/-- Subleaf 2 enumerates nothing where it is not valid (R31, R163). -/
theorem c72EdxBit_of_maxSubleaf7_lt {c : Cfg} (n : Nat) (h : c.maxSubleaf7 < 2) :
    c72EdxBit c n = false := by
  rw [c72EdxBit, decide_eq_false (Nat.not_le.mpr h), Bool.false_and]

/-! ### CPUID and its rows as completions -/

theorem exec_cpuid (s : State) : exec .cpuid s = cpuidComplete s cpuidOut := rfl

theorem exec_cpuidLeaf7Invalid (s : State) :
    exec .cpuidLeaf7Invalid s =
      whenSelected (s.cur.eax == 7 && !subleafValid s.cur)
        (cpuidComplete s fun _ => ⟨0, 0, 0, 0⟩) := rfl

/-- CPUID changes the four output registers and `ip`, and nothing else (R160). -/
theorem cpuidComplete_eq_next {s : State} {out : LogicalProcessor → CpuidOut} {o : CpuidOut}
    (ho : out s.cur = o) :
    cpuidComplete s out = .next { s with cur := { s.cur with
      eax := o.eax, ebx := o.ebx, ecx := o.ecx, edx := o.edx, ip := s.cur.ip + 2 } } := by
  subst ho
  rfl

/-- On an invalid subleaf the instruction and its selector row are the same completion, with zeros
(R133, R163). -/
theorem exec_cpuid_of_invalid_subleaf {s : State} {i : Instr}
    (hi : i = .cpuid ∨ i = .cpuidLeaf7Invalid) (hleaf : s.cur.eax = 7)
    (hsub : s.cur.cfg.maxSubleaf7 < s.cur.ecx.toNat) :
    exec i s = .next { s with cur := { s.cur with
      eax := 0, ebx := 0, ecx := 0, edx := 0, ip := s.cur.ip + 2 } } := by
  have hinvalid : subleafValid s.cur = false := subleafValid_eq_false_iff.mpr hsub
  obtain rfl | rfl := hi
  · rw [exec_cpuid, cpuidComplete_eq_next (cpuidOut_of_invalid_subleaf hleaf hinvalid)]
  · have hselected : (s.cur.eax == 7 && !subleafValid s.cur) = true := by
      simp [hleaf, hinvalid]
    rw [exec_cpuidLeaf7Invalid, hselected, whenSelected_true, cpuidComplete_eq_next rfl]

/-- Settles O14: the validity test is false above the greatest valid subleaf, FFFFFFFFH as an unsigned
number included, so CPUID and its row complete with zeros; subleaf 2 enumerates only where it is valid. -/
theorem invalidSubleafReturnsZeros : Obligations.InvalidSubleafReturnsZeros := by
  refine ⟨fun s i hi hleaf hsub => exec_cpuid_of_invalid_subleaf hi hleaf hsub,
    fun s hleaf hecx hmax => ?_, fun c n h => c72EdxBit_of_maxSubleaf7_lt n h⟩
  have hsub : s.cur.cfg.maxSubleaf7 < s.cur.ecx.toNat := by
    rw [hecx]
    exact hmax
  exact exec_cpuid_of_invalid_subleaf (.inl rfl) hleaf hsub

end Sys2Proof.Machine
end

section
/-! IA32_SPEC_CTRL: each logical processor has its own (R262), and which events clear it (R263). -/

namespace Sys2Proof.Machine

/-! ### A completing WRMSR, and the RDMSR behind it -/

theorem exec_wrmsrSpecCtrl (s : State) :
    exec .wrmsrSpecCtrl s =
      whenSelected (s.cur.ecx == msrIndex .specCtrl) (wrmsrOf .specCtrl s) := rfl

theorem exec_rdmsrSpecCtrl (s : State) :
    exec .rdmsrSpecCtrl s =
      whenSelected (s.cur.ecx == msrIndex .specCtrl) (rdmsrOf .specCtrl s) := rfl

/-- Every value is legal and none is clamped, so a WRMSR that completes stores its operand as given
(R251). -/
theorem wrmsrOf_specCtrl_next {s t : State} (h : wrmsrOf .specCtrl s = .next t) :
    s.cur.cpl = 0 ∧ msrExists .specCtrl s.cur.cfg = true ∧
      t = s.onCur fun lp => (msrWrite .specCtrl (edxEax s.cur) lp).advance 2 := by
  obtain ⟨hcpl, hexists, -, -, -, ⟨-, ht⟩ | ⟨hillegal, -, -⟩⟩ := wrmsrOf_next h
  · exact ⟨hcpl, hexists, ht⟩
  · exact absurd hillegal (by simp [msrLegal])

@[simp] theorem msrRead_msrWrite_specCtrl (v : Quad) (lp : LogicalProcessor) :
    msrRead .specCtrl (msrWrite .specCtrl v lp) = v := rfl

@[simp] theorem msrRead_specCtrl_advance (n : Nat) (lp : LogicalProcessor) :
    msrRead .specCtrl (lp.advance n) = msrRead .specCtrl lp := rfl

/-- RDMSR of IA32_SPEC_CTRL completes at CPL 0 where the MSR exists and ECX names it (R190, R250). -/
theorem exec_rdmsrSpecCtrl_eq_next {s : State} (hecx : s.cur.ecx = msrIndex .specCtrl)
    (hcpl : s.cur.cpl = 0) (hexists : msrExists .specCtrl s.cur.cfg = true) :
    exec .rdmsrSpecCtrl s =
      .next (s.onCur fun lp => (putEdxEax (msrRead .specCtrl lp) lp).advance 2) := by
  have hlicensed : readLicensed .specCtrl s.cur = true := by
    simp [readLicensed, msrClass, hcpl, hexists]
  rw [exec_rdmsrSpecCtrl, hecx, beq_self_eq_true, whenSelected_true, rdmsrOf_of_licensed hlicensed]
  rfl

/-- WRMSR leaves ECX, CPL and the configuration, so the RDMSR behind it passes the same checks; what it
returns is the operand written, in halves (R262). -/
theorem exec_rdmsrSpecCtrl_after_wrmsr {s t : State} (h : exec .wrmsrSpecCtrl s = .next t) :
    t.others = s.others ∧
      ∃ u : State, exec .rdmsrSpecCtrl t = .next u ∧ u.others = s.others ∧
        u.cur.eax = s.cur.eax ∧ u.cur.edx = s.cur.edx := by
  rw [exec_wrmsrSpecCtrl] at h
  obtain ⟨hselected, hwrite⟩ := whenSelected_next h
  obtain ⟨hcpl, hexists, rfl⟩ := wrmsrOf_specCtrl_next hwrite
  have hecx : s.cur.ecx = msrIndex .specCtrl := beq_iff_eq.mp hselected
  exact ⟨rfl, _, exec_rdmsrSpecCtrl_eq_next hecx hcpl hexists, rfl, by simp, by simp⟩

/-! ### Modes in force through a sibling -/

/-- The siblings of a logical processor are the others of the package on its core (R22). -/
theorem State.mem_siblings {s : State} {lp t : LogicalProcessor} :
    t ∈ s.siblings lp ↔ t ∈ s.lps ∧ t.core = lp.core ∧ t.id ≠ lp.id := by
  simp only [State.siblings, State.coreLps, List.mem_filter, beq_iff_eq, bne_iff_ne, and_assoc]

/-- A mode may be in force exactly through the own setting or a sibling's (R262). -/
theorem specCtrlMayBeInForce_iff {n : Nat} {s : State} {lp : LogicalProcessor} :
    specCtrlMayBeInForce n s lp = true ↔
      specCtrlOn n lp = true ∨
        ∃ t ∈ s.lps, t.core = lp.core ∧ t.id ≠ lp.id ∧ specCtrlOn n t = true := by
  simp only [specCtrlMayBeInForce, Bool.or_eq_true, List.any_eq_true, State.mem_siblings, and_assoc]

/-- Settles O34: the write changes the executing logical processor alone and stores its operand exactly;
the sibling's part in a mode is read off `siblings`. -/
theorem specCtrlIsPerLogicalProcessor : Obligations.SpecCtrlIsPerLogicalProcessor :=
  ⟨fun _ _ h => exec_rdmsrSpecCtrl_after_wrmsr h, fun _ _ _ => specCtrlMayBeInForce_iff⟩

/-! ### Reset, INIT# and SIPI# -/

/-- A reset keeps every logical processor the machine holds and gives each its reset state (R420). -/
theorem applyReset_next_threads {a : CfgAssignment} {s t : State} (h : applyReset a s = .next t) :
    t.threads = s.threads.map fun lp => lp.resetTo (a.forLp lp.id) (s.placed a lp) := by
  obtain ⟨-, rfl⟩ := applyReset_next h
  exact State.onAll_threads _ _

@[simp] theorem LogicalProcessor.resetTo_specCtrl (c : Cfg) (here : Bool) (lp : LogicalProcessor) :
    (lp.resetTo c here).specCtrl = 0 := rfl
@[simp] theorem LogicalProcessor.resetTo_uarchMiscCtl (c : Cfg) (here : Bool)
    (lp : LogicalProcessor) : (lp.resetTo c here).uarchMiscCtl = 0 := rfl

@[simp] theorem onNumber_id (n : Nat) : onNumber n id = id := by
  funext lp
  simp [onNumber]

@[simp] theorem State.onLp_id (s : State) (n : Nat) : s.onLp n id = s := by
  simp [State.onLp, State.onAll]

/-- INIT# and SIPI# of a logical processor the package has complete and change nothing (R424). -/
theorem applyEvent_init_or_sipi {s : State} {n : Nat} {e : EnvEvent} (hlp : s.hasLp n = true)
    (he : e = .init n ∨ e = .sipi n) : applyEvent e s = .next s := by
  have hid : applyToLp n id s = .next s := by rw [applyToLp, if_pos hlp, State.onLp_id]
  obtain rfl | rfl := he
  · exact hid
  · exact hid

theorem mem_reset_threads {lp : LogicalProcessor} (h : lp ∈ State.reset.threads) :
    lp = lpAfterReset 0 0xFEE00900 ∨ lp = lpAfterReset 1 0xFEE00800 := by
  simpa [State.threads, State.reset] using h

/-- Settles O46: a reset gives every logical processor `resetTo`, whose two registers are 0; INIT# and
SIPI# complete with the state they find. -/
theorem resetClearsSpecCtrl : Obligations.ResetClearsSpecCtrl := by
  refine ⟨fun s t a h => ?_, fun s n e hlp he => ?_, fun lp hlp => ?_⟩
  · rw [applyReset_next_threads h]
    refine ⟨List.length_map _, fun lp hlp => ?_⟩
    obtain ⟨lp₀, -, rfl⟩ := List.mem_map.mp hlp
    exact ⟨lp₀.resetTo_specCtrl _ _, lp₀.resetTo_uarchMiscCtl _ _⟩
  · exact ⟨s, applyEvent_init_or_sipi hlp he, rfl⟩
  · obtain rfl | rfl := mem_reset_threads hlp
    · exact ⟨rfl, rfl⟩
    · exact ⟨rfl, rfl⟩

end Sys2Proof.Machine
end

section
/-! MCHECK (R362): its completion in x2APIC mode sets LEGACY_XAPIC_DISABLED; the WRMSR to 79H that
performs it is outside the spec. -/

namespace Sys2Proof.Machine

/-! ### An event of one logical processor -/

/-- `applyToLp_next` in the other direction. -/
theorem applyToLp_of_hasLp {n : Nat} {s : State} (f : LogicalProcessor → LogicalProcessor)
    (h : s.hasLp n = true) : applyToLp n f s = .next (s.onLp n f) :=
  if_pos h

/-- A change of one logical processor, seen on each one the machine holds before and after it. -/
theorem State.forall₂_threads_onLp (s : State) (n : Nat)
    (f : LogicalProcessor → LogicalProcessor) :
    List.Forall₂ (fun lp lp' => lp' = onNumber n f lp) s.threads (s.onLp n f).threads := by
  rw [State.onLp, State.onAll_threads, List.forall₂_map_right_iff]
  exact List.forall₂_same.mpr fun _ _ => rfl

/-! ### What MCHECK's completion does to one logical processor -/

theorem LogicalProcessor.mcheck_of_extd {lp : LogicalProcessor}
    (hexists : msrExists .xapicDisableStatus lp.cfg = true) (hextd : lp.apicExtd = true) :
    lp.mcheck = { lp with xapicDisabled := true } := by
  rw [LogicalProcessor.mcheck, hexists, hextd, Bool.and_self, Bool.or_true]

/-- Without the status MSR, or outside x2APIC mode, the bit keeps its value (R362). -/
theorem LogicalProcessor.mcheck_of_not {lp : LogicalProcessor}
    (h : ¬(msrExists .xapicDisableStatus lp.cfg = true ∧ lp.apicExtd = true)) :
    lp.mcheck = lp := by
  have hnot : (msrExists .xapicDisableStatus lp.cfg && lp.apicExtd) = false := by simpa using h
  rw [LogicalProcessor.mcheck, hnot, Bool.or_false]

/-- The three conditions of R362 together: the number, the MSR and the mode. -/
theorem onNumber_mcheck (n : Nat) (lp : LogicalProcessor) :
    onNumber n LogicalProcessor.mcheck lp =
      if lp.id = n ∧ msrExists .xapicDisableStatus lp.cfg = true ∧ lp.apicExtd = true then
        { lp with xapicDisabled := true }
      else lp := by
  by_cases hid : lp.id = n
  · rw [onNumber, if_pos hid]
    split
    next hset =>
      obtain ⟨-, hexists, hextd⟩ := hset
      exact LogicalProcessor.mcheck_of_extd hexists hextd
    next hkeep => exact LogicalProcessor.mcheck_of_not fun hmode => hkeep ⟨hid, hmode⟩
  · rw [onNumber, if_neg hid, if_neg fun hset => hid hset.1]

/-! ### The WRMSR that performs MCHECK -/

theorem msrOfIndex_mcheck : msrOfIndex 0x79 = none := by decide

theorem exec_wrmsr_of_outside {s : State} (h : msrOfIndex s.cur.ecx = none) :
    exec .wrmsr s = accessOutside s := by
  change execWrmsr s = _
  rw [execWrmsr, h]

theorem exec_wrmsrMcheck (s : State) :
    exec .wrmsrMcheck s = whenSelected (s.cur.ecx == 0x79) (accessOutside s) := rfl

/-- At CPL 0 the privilege check passes, and what is left is the refusal (R194, R200). -/
theorem accessOutside_of_cpl0 {s : State} (h : s.cur.cpl = 0) :
    accessOutside s = .refused (.msrOutsideSpec s.cur.ecx) := by
  rw [accessOutside, if_neg (not_not_intro h), refuse]

/-- Settles O49: the event is `mcheck` on the one numbered `n`, which sets the bit exactly under the
conditions of R362; 79H names no MSR of the spec, so instruction and row are the refused access. -/
theorem mcheckCompletionSetsTheLock : Obligations.McheckCompletionSetsTheLock := by
  refine ⟨fun s n hlp => ?_, fun s hcpl hecx => ?_⟩
  · have hevent : applyEvent (.mcheckComplete n) s = .next (s.onLp n LogicalProcessor.mcheck) :=
      applyToLp_of_hasLp _ hlp
    refine ⟨_, hevent, rfl, rfl, rfl, ?_⟩
    simpa only [onNumber_mcheck] using s.forall₂_threads_onLp n LogicalProcessor.mcheck
  · have hrefused : accessOutside s = .refused (.msrOutsideSpec 0x79) := by
      rw [accessOutside_of_cpl0 hcpl, hecx]
    have hnone : msrOfIndex s.cur.ecx = none := by rw [hecx, msrOfIndex_mcheck]
    refine ⟨by rw [exec_wrmsr_of_outside hnone, hrefused], ?_⟩
    rw [exec_wrmsrMcheck, hecx, beq_self_eq_true, whenSelected_true, hrefused]

end Sys2Proof.Machine
end

section
/-! The encoder and the decoder invert each other (R130, R131, R133, R134). -/

namespace Sys2Proof

/-! ### The fields of a ModRM byte and of an operand, written and read back -/

@[simp] theorem modRmMod_modRmByte (mod : BitVec 2) (reg rm : BitVec 3) :
    modRmMod (modRmByte mod reg rm) = mod := by
  apply BitVec.eq_of_getLsbD_eq
  intro n hn
  simp only [modRmMod, modRmByte, BitVec.getLsbD_extractLsb', BitVec.getLsbD_append]
  grind

@[simp] theorem modRmReg_modRmByte (mod : BitVec 2) (reg rm : BitVec 3) :
    modRmReg (modRmByte mod reg rm) = reg := by
  apply BitVec.eq_of_getLsbD_eq
  intro n hn
  simp only [modRmReg, modRmByte, BitVec.getLsbD_extractLsb', BitVec.getLsbD_append]
  grind

@[simp] theorem modRmRm_modRmByte (mod : BitVec 2) (reg rm : BitVec 3) :
    modRmRm (modRmByte mod reg rm) = rm := by
  apply BitVec.eq_of_getLsbD_eq
  intro n hn
  simp only [modRmRm, modRmByte, BitVec.getLsbD_extractLsb', BitVec.getLsbD_append]
  grind

/-- A byte is the ModRM byte of its three fields. -/
@[simp] theorem modRmByte_fields (b : Byte) :
    modRmByte (modRmMod b) (modRmReg b) (modRmRm b) = b := by
  apply BitVec.eq_of_getLsbD_eq
  intro n hn
  simp only [modRmByte, modRmMod, modRmReg, modRmRm, BitVec.getLsbD_append,
    BitVec.getLsbD_extractLsb']
  grind

@[simp] theorem RegField.ofNum_num (r : RegField) : RegField.ofNum r.num = r := by
  cases r <;> rfl

@[simp] theorem RegField.num_ofNum (n : BitVec 3) : (RegField.ofNum n).num = n := by
  revert n
  decide

theorem word16_of_bytes (v : BitVec 16) :
    word16 (v.extractLsb' 0 8) (v.extractLsb' 8 8) = v := by
  apply BitVec.eq_of_getLsbD_eq
  intro n hn
  simp only [word16, BitVec.getLsbD_append, BitVec.getLsbD_extractLsb']
  grind

theorem word32_of_bytes (v : BitVec 32) :
    word32 (v.extractLsb' 0 8) (v.extractLsb' 8 8) (v.extractLsb' 16 8) (v.extractLsb' 24 8) = v := by
  apply BitVec.eq_of_getLsbD_eq
  intro n hn
  simp only [word32, BitVec.getLsbD_append, BitVec.getLsbD_extractLsb']
  grind

@[simp] theorem bytesOf16_word16 (b0 b1 : Byte) : bytesOf16 (word16 b0 b1) = [b0, b1] := by
  simp only [bytesOf16, List.cons.injEq, and_true]
  constructor <;> apply BitVec.eq_of_getLsbD_eq <;> intro n hn <;>
    simp only [word16, BitVec.getLsbD_append, BitVec.getLsbD_extractLsb'] <;> grind

@[simp] theorem bytesOf32_word32 (b0 b1 b2 b3 : Byte) :
    bytesOf32 (word32 b0 b1 b2 b3) = [b0, b1, b2, b3] := by
  simp only [bytesOf32, List.cons.injEq, and_true]
  refine ⟨?_, ?_, ?_, ?_⟩ <;> apply BitVec.eq_of_getLsbD_eq <;> intro n hn <;>
    simp only [word32, BitVec.getLsbD_append, BitVec.getLsbD_extractLsb'] <;> grind

/-! ### The bytes behind the ModRM byte of VERW (entry 6) -/

/-- The bytes behind ModRM are looked at only where there is a SIB byte, and then there is at least one. -/
theorem modRmTailLength_of_eq_zero {mod : BitVec 2} {rm : BitVec 3} {tail : List Byte}
    (h : modRmTailLength mod rm tail = 0) (tail' : List Byte) : modRmTailLength mod rm tail' = 0 := by
  unfold modRmTailLength at h ⊢
  by_cases hmod : mod = 3
  · rw [if_pos hmod]
  · have hrm : rm ≠ 4 := by
      rintro rfl
      rw [if_neg hmod, if_pos rfl] at h
      omega
    simp only [hmod, hrm, dispLength, if_false, false_and] at h ⊢
    exact h

theorem modRmTailLength_append {mod : BitVec 2} {rm : BitVec 3} {tail : List Byte} (rest : List Byte)
    (h : tail.length = modRmTailLength mod rm tail) :
    modRmTailLength mod rm (tail ++ rest) = tail.length := by
  cases tail with
  | cons b bs => exact h.symm
  | nil => exact modRmTailLength_of_eq_zero h.symm rest

/-- The bytes the decoder takes as the operand's tail are as many as they themselves call for. -/
theorem modRmTailLength_take (mod : BitVec 2) (rm : BitVec 3) (bytes : List Byte) :
    modRmTailLength mod rm (bytes.take (modRmTailLength mod rm bytes)) =
      modRmTailLength mod rm bytes := by
  cases bytes with
  | nil => simp
  | cons b bs =>
    cases hn : modRmTailLength mod rm (b :: bs) with
    | succ n => exact hn
    | zero => exact modRmTailLength_of_eq_zero hn _

theorem RmOperand.wf_iff (op : RmOperand) :
    op.wf = true ↔ op.tail.length = modRmTailLength op.mod op.rm op.tail := beq_iff_eq

/-! ### Decoding an encoding -/

theorem decodeVerw_modRmByte {op : RmOperand} (rest : List Byte) (h : op.wf = true) :
    decodeVerw (modRmByte op.mod 5 op.rm :: (op.tail ++ rest)) = .instr (.verw op) rest := by
  have hlen := modRmTailLength_append rest (op.wf_iff.mp h)
  simp [decodeVerw, hlen]

theorem decode_encodeXbegin (rel : RelOperand) (rest : List Byte) :
    decode (encodeXbegin rel ++ rest) = .instr (.xbegin rel) rest := by
  cases rel with
  | rel32 d =>
    simp [encodeXbegin, bytesOf32, decode, decodeXbegin32, word32_of_bytes]
  | rel16 d =>
    simp [encodeXbegin, bytesOf16, decode, decodeXbegin16, word16_of_bytes]

/-- An instruction that is its own row comes back from its bytes. -/
theorem decode_encodeBase {i : Instr} (rest : List Byte) (hrow : i.base = i) (hwf : i.wf = true) :
    decode (encodeBase i ++ rest) = .instr i rest := by
  cases i with
  | cpuid | rdmsr | wrmsr | monitor | ret => rfl
  | verw op => exact decodeVerw_modRmByte rest hwf
  | xbegin rel => exact decode_encodeXbegin rel rest
  | rdrand r | rdseed r => simp [encodeBase, decode, decodeEscape, decodeRandom]
  | umonitor r | umwait r => simp [encodeBase, decode, decodeWait]
  | retImm16 imm =>
    simp [encodeBase, bytesOf16, decode, decodeRetImm16, word16_of_bytes]
  | _ => exact absurd hrow (by simp [Instr.base])

@[simp] theorem Instr.base_base (i : Instr) : i.base.base = i.base := by
  cases i <;> rfl

/-- Every row is as well formed as the instruction whose bytes it has: only VERW has a condition. -/
@[simp] theorem Instr.wf_base (i : Instr) : i.base.wf = i.wf := by
  cases i <;> rfl

/-- Settles O2: a row has the bytes of its instruction, and those decode to it. -/
theorem decodeInvertsEncode : Obligations.DecodeInvertsEncode :=
  fun i rest hwf => decode_encodeBase rest i.base_base (i.wf_base.trans hwf)

/-! ### Encoding what was decoded -/

/-- What it means that an answer of the decoder undoes the encoder: the instruction is well formed and its
own row, and its bytes stand before the rest. -/
def Decoded.IsEncodingOf (bs : List Byte) (d : Decoded) : Prop :=
  ∀ i rest, d = .instr i rest → i.wf = true ∧ i.base = i ∧ bs = encode i ++ rest

theorem Decoded.isEncodingOf_rejected (bs : List Byte) (why : DecodeReject) :
    (Decoded.rejected why).IsEncodingOf bs := by
  intro i rest h
  cases h

theorem Decoded.isEncodingOf_instr {bs rest : List Byte} {i : Instr} (hwf : i.wf = true)
    (hbase : i.base = i) (hbs : bs = encode i ++ rest) :
    (Decoded.instr i rest).IsEncodingOf bs := by
  intro j rest' h
  cases h
  exact ⟨hwf, hbase, hbs⟩

theorem decodeVerw_isEncodingOf (bs : List Byte) :
    (decodeVerw bs).IsEncodingOf (0x0F :: 0x00 :: bs) := by
  cases bs with
  | nil => exact Decoded.isEncodingOf_rejected _ _
  | cons m bytes =>
    simp only [decodeVerw]
    split
    next hreg =>
      split
      next => exact Decoded.isEncodingOf_rejected _ _
      next hlen =>
        refine Decoded.isEncodingOf_instr ((RmOperand.wf_iff _).mpr ?_) rfl ?_
        · rw [modRmTailLength_take, List.length_take, Nat.min_eq_left (Nat.not_lt.mp hlen)]
        · have hm : modRmByte (modRmMod m) 5 (modRmRm m) = m := by rw [← hreg, modRmByte_fields]
          simp only [encode, Instr.base, encodeBase, hm, List.cons_append, List.nil_append,
            List.take_append_drop]
    next => exact Decoded.isEncodingOf_rejected _ _

/-- A ModRM byte with `mod = 3` and a fixed middle field is written from the register it names. -/
theorem modRmByte_of_register {m : Byte} {reg : BitVec 3} (h : modRmMod m = 3 ∧ modRmReg m = reg) :
    modRmByte 3 reg (RegField.ofNum (modRmRm m)).num = m := by
  obtain ⟨hmod, hreg⟩ := h
  rw [← hmod, ← hreg, RegField.num_ofNum, modRmByte_fields]

theorem decodeRandom_isEncodingOf (bs : List Byte) :
    (decodeRandom bs).IsEncodingOf (0x0F :: 0xC7 :: bs) := by
  cases bs with
  | nil => exact Decoded.isEncodingOf_rejected _ _
  | cons m bytes =>
    simp only [decodeRandom]
    split
    next h =>
      refine Decoded.isEncodingOf_instr rfl rfl ?_
      simp only [encode, Instr.base, encodeBase, modRmByte_of_register h, List.cons_append, List.nil_append]
    next =>
      split
      next h =>
        refine Decoded.isEncodingOf_instr rfl rfl ?_
        simp only [encode, Instr.base, encodeBase, modRmByte_of_register h, List.cons_append, List.nil_append]
      next => exact Decoded.isEncodingOf_rejected _ _

theorem decodeMonitor_isEncodingOf (bs : List Byte) :
    (decodeMonitor bs).IsEncodingOf (0x0F :: 0x01 :: bs) := by
  cases bs with
  | nil => exact Decoded.isEncodingOf_rejected _ _
  | cons m bytes =>
    simp only [decodeMonitor]
    split
    next h => exact Decoded.isEncodingOf_instr rfl rfl (by rw [h]; rfl)
    next => exact Decoded.isEncodingOf_rejected _ _

theorem decodeEscape_isEncodingOf (bs : List Byte) :
    (decodeEscape bs).IsEncodingOf (0x0F :: bs) := by
  cases bs with
  | nil => exact Decoded.isEncodingOf_rejected _ _
  | cons b bytes =>
    simp only [decodeEscape]
    split_ifs with hcpuid hrdmsr hwrmsr hverw hmonitor hrandom
    · exact Decoded.isEncodingOf_instr rfl rfl (by rw [hcpuid]; rfl)
    · exact Decoded.isEncodingOf_instr rfl rfl (by rw [hrdmsr]; rfl)
    · exact Decoded.isEncodingOf_instr rfl rfl (by rw [hwrmsr]; rfl)
    · exact hverw ▸ decodeVerw_isEncodingOf bytes
    · exact hmonitor ▸ decodeMonitor_isEncodingOf bytes
    · exact hrandom ▸ decodeRandom_isEncodingOf bytes
    · exact Decoded.isEncodingOf_rejected _ _

/-- UMONITOR and UMWAIT differ in the first byte `b` only. -/
theorem decodeWait_isEncodingOf {row : RegField → Instr} {b : Byte} (bs : List Byte)
    (hwf : ∀ r, (row r).wf = true) (hbase : ∀ r, (row r).base = row r)
    (hbytes : ∀ r, encode (row r) = [b, 0x0F, 0xAE, modRmByte 3 6 r.num]) :
    (decodeWait row bs).IsEncodingOf (b :: bs) := by
  unfold decodeWait
  split
  next b0 b1 m bytes =>
    split
    next h =>
      obtain ⟨rfl, rfl, hm⟩ := h
      refine Decoded.isEncodingOf_instr (hwf _) (hbase _) ?_
      simp only [hbytes, modRmByte_of_register hm, List.cons_append, List.nil_append]
    next => exact Decoded.isEncodingOf_rejected _ _
  next => exact Decoded.isEncodingOf_rejected _ _

theorem decodeXbegin32_isEncodingOf (bs : List Byte) :
    (decodeXbegin32 bs).IsEncodingOf (0xC7 :: bs) := by
  unfold decodeXbegin32
  split
  next =>
    split
    next h =>
      refine Decoded.isEncodingOf_instr rfl rfl ?_
      simp [encode, Instr.base, encodeBase, encodeXbegin, h]
    next => exact Decoded.isEncodingOf_rejected _ _
  next => exact Decoded.isEncodingOf_rejected _ _

theorem decodeXbegin16_isEncodingOf (bs : List Byte) :
    (decodeXbegin16 bs).IsEncodingOf (0x66 :: bs) := by
  unfold decodeXbegin16
  split
  next =>
    split
    next h =>
      refine Decoded.isEncodingOf_instr rfl rfl ?_
      simp [encode, Instr.base, encodeBase, encodeXbegin, h]
    next => exact Decoded.isEncodingOf_rejected _ _
  next => exact Decoded.isEncodingOf_rejected _ _

theorem decodeRetImm16_isEncodingOf (bs : List Byte) :
    (decodeRetImm16 bs).IsEncodingOf (0xC2 :: bs) := by
  unfold decodeRetImm16
  split
  next => exact Decoded.isEncodingOf_instr rfl rfl (by simp [encode, Instr.base, encodeBase])
  next => exact Decoded.isEncodingOf_rejected _ _

theorem decode_isEncodingOf (bs : List Byte) : (decode bs).IsEncodingOf bs := by
  cases bs with
  | nil => exact Decoded.isEncodingOf_rejected _ _
  | cons b bytes =>
    simp only [decode]
    split_ifs with hescape hret hretImm hxbegin32 hxbegin16 humonitor humwait
    · exact hescape ▸ decodeEscape_isEncodingOf bytes
    · exact Decoded.isEncodingOf_instr rfl rfl (by rw [hret]; rfl)
    · exact hretImm ▸ decodeRetImm16_isEncodingOf bytes
    · exact hxbegin32 ▸ decodeXbegin32_isEncodingOf bytes
    · exact hxbegin16 ▸ decodeXbegin16_isEncodingOf bytes
    · exact humonitor ▸
        decodeWait_isEncodingOf bytes (fun _ => rfl) (fun _ => rfl) (fun _ => rfl)
    · exact humwait ▸
        decodeWait_isEncodingOf bytes (fun _ => rfl) (fun _ => rfl) (fun _ => rfl)
    · exact Decoded.isEncodingOf_rejected _ _

/-- Settles O1: the three forms decode at their second byte; each other word is one evaluation. -/
theorem writtenOutWordsDecode : Obligations.WrittenOutWordsDecode := by
  refine ⟨fun rest => ⟨rfl, rfl, rfl⟩, ?_⟩
  refine ⟨?_, ?_, ?_, ?_, ?_, ?_, ?_, ?_, ?_, ?_⟩
  all_goals decide

/-- Settles O3: along the branches of the decoder, each sub-decoder's answer has the bytes it read. -/
theorem encodeInvertsDecode : Obligations.EncodeInvertsDecode :=
  fun bs rest i h => decode_isEncodingOf bs i rest h

/-! ### Bytes the decoder rejects -/

theorem decode_rejected_of_no_encoding {bs : List Byte}
    (h : ∀ (i : Instr) (rest : List Byte), i.wf = true → bs ≠ encode i ++ rest) :
    ∃ why, decode bs = .rejected why := by
  cases hd : decode bs with
  | rejected why => exact ⟨why, rfl⟩
  | instr i rest =>
    obtain ⟨hwf, -, hbs⟩ := decode_isEncodingOf bs i rest hd
    exact absurd hbs (h i rest hwf)

/-- The bytes of CPUID, RDMSR and WRMSR are the escape byte and one of three more (R130). -/
theorem encode_of_mem_three {i : Instr} (h : i ∈ [Instr.cpuid, .rdmsr, .wrmsr]) :
    ∃ b ∈ ([0xA2, 0x32, 0x30] : List Byte), encode i = [0x0F, b] := by
  simp only [List.mem_cons, List.not_mem_nil, or_false] at h
  obtain rfl | rfl | rfl := h
  · exact ⟨0xA2, by simp, rfl⟩
  · exact ⟨0x32, by simp, rfl⟩
  · exact ⟨0x30, by simp, rfl⟩

/-- Behind 66H only C7H goes on as an instruction (R131). -/
theorem decodeXbegin16_escape (bs : List Byte) :
    ∃ why, decodeXbegin16 (0x0F :: bs) = .rejected why := by
  match bs with
  | [] | [_] | [_, _] => exact ⟨_, rfl⟩
  | _ :: _ :: _ :: _ => exact ⟨.notOfThisSpec, rfl⟩

/-- Behind F2H and F3H only 0FH AEH goes on as an instruction (R131). -/
theorem decodeWait_escape (row : RegField → Instr) {b : Byte} (bs : List Byte) (hb : b ≠ 0xAE) :
    ∃ why, decodeWait row (0x0F :: b :: bs) = .rejected why := by
  cases bs with
  | nil => exact ⟨_, rfl⟩
  | cons m bs => exact ⟨.notOfThisSpec, if_neg fun h => hb h.2.1⟩

/-- One of the bytes of R131 in front of one of the three makes it none of the admitted encodings. -/
theorem decode_rejected_of_prefix {p : Byte}
    (hp : p ∈ ([0x66, 0x67, 0xF0, 0xF2, 0xF3, 0x26, 0x2E, 0x36, 0x3E, 0x64, 0x65] : List Byte))
    {i : Instr} (hi : i ∈ [Instr.cpuid, .rdmsr, .wrmsr]) (rest : List Byte) :
    ∃ why, decode (p :: (encode i ++ rest)) = .rejected why := by
  obtain ⟨b, hb, hi⟩ := encode_of_mem_three hi
  have hae : b ≠ 0xAE := by
    rintro rfl
    exact absurd hb (by decide)
  rw [hi]
  simp only [List.mem_cons, List.not_mem_nil, or_false] at hp
  obtain rfl | rfl | rfl | rfl | rfl | rfl | rfl | rfl | rfl | rfl | rfl := hp
  · exact decodeXbegin16_escape _
  · exact ⟨_, rfl⟩
  · exact ⟨_, rfl⟩
  · exact decodeWait_escape _ _ hae
  · exact decodeWait_escape _ _ hae
  all_goals exact ⟨_, rfl⟩

end Sys2Proof
end

section
/-! The selector rows and their instruction (R133), and the step from the bytes at `ip` to `exec`
(R116, R131). -/

namespace Sys2Proof.Machine

/-! ### RDMSR and WRMSR by the index in ECX -/

theorem exec_rdmsr_of_index {m : Msr} {s : State} (h : s.cur.ecx = msrIndex m) :
    exec .rdmsr s = rdmsrOf m s := by
  change execRdmsr s = _
  rw [execRdmsr, h, msrOfIndex_msrIndex]

theorem exec_wrmsr_of_index {m : Msr} {s : State} (h : s.cur.ecx = msrIndex m) :
    exec .wrmsr s = wrmsrOf m s := by
  change execWrmsr s = _
  rw [execWrmsr, h, msrOfIndex_msrIndex]

theorem exec_rdmsr_of_outside {s : State} (h : msrOfIndex s.cur.ecx = none) :
    exec .rdmsr s = accessOutside s := by
  change execRdmsr s = _
  rw [execRdmsr, h]

/-- The indices outside the spec are those of no MSR (R54, R194). -/
theorem msrOfIndex_eq_none_iff (idx : Word) : msrOfIndex idx = none ↔
    idx ∉ [(0x1B : Word), 0x48, 0x49, 0xBD, 0x10A, 0x10B, 0x10F, 0x122, 0x123, 0x1B01] := by
  constructor
  · intro h hmem
    simp only [List.mem_cons, List.not_mem_nil, or_false] at hmem
    rcases hmem with rfl | rfl | rfl | rfl | rfl | rfl | rfl | rfl | rfl | rfl <;>
      exact absurd h (by decide)
  · intro h
    simp only [List.mem_cons, List.not_mem_nil, or_false, not_or] at h
    obtain ⟨h1, h2, h3, h4, h5, h6, h7, h8, h9, h10⟩ := h
    simp only [msrOfIndex, if_neg h1, if_neg h2, if_neg h3, if_neg h4, if_neg h5, if_neg h6,
      if_neg h7, if_neg h8, if_neg h9, if_neg h10]

/-- An index names one of the ten MSRs or none. -/
theorem msrIndex_or_outside (idx : Word) : (∃ m, idx = msrIndex m) ∨ msrOfIndex idx = none := by
  cases h : msrOfIndex idx with
  | none => exact .inr rfl
  | some m => exact .inl ⟨m, msrIndex_of_msrOfIndex h⟩

/-! ### Each selector row is its instruction behind its selector -/

theorem whenSelected_congr {b b' : Bool} {o o' : Result} (hb : b = b') (ho : b = true → o = o') :
    whenSelected b o = whenSelected b' o' := by
  subst hb
  cases b with
  | false => rfl
  | true => rw [ho rfl]

theorem cpuidComplete_congr {s : State} {out out' : LogicalProcessor → CpuidOut}
    (h : out s.cur = out' s.cur) : cpuidComplete s out = cpuidComplete s out' := by
  rw [cpuidComplete_eq_next h, cpuidComplete_eq_next rfl]

theorem exec_rdmsrRow (m : Msr) (s : State) :
    exec (rdmsrRow m) s = whenSelected (rowSelects (rdmsrRow m) s.cur) (rdmsrOf m s) := by
  cases m <;> rfl

theorem exec_wrmsrRow (m : Msr) (s : State) :
    exec (wrmsrRow m) s = whenSelected (rowSelects (wrmsrRow m) s.cur) (wrmsrOf m s) := by
  cases m <;> rfl

theorem rowSelects_rdmsrRow {m : Msr} {lp : LogicalProcessor} :
    rowSelects (rdmsrRow m) lp = true ↔ lp.ecx = msrIndex m := by
  cases m <;> exact decide_eq_true_iff

theorem rowSelects_wrmsrRow {m : Msr} {lp : LogicalProcessor} :
    rowSelects (wrmsrRow m) lp = true ↔ lp.ecx = msrIndex m := by
  cases m <;> exact decide_eq_true_iff

theorem exec_rdmsrRow_eq (m : Msr) (s : State) :
    exec (rdmsrRow m) s = whenSelected (rowSelects (rdmsrRow m) s.cur) (exec .rdmsr s) := by
  rw [exec_rdmsrRow]
  exact whenSelected_congr rfl fun h => (exec_rdmsr_of_index (rowSelects_rdmsrRow.mp h)).symm

theorem exec_wrmsrRow_eq (m : Msr) (s : State) :
    exec (wrmsrRow m) s = whenSelected (rowSelects (wrmsrRow m) s.cur) (exec .wrmsr s) := by
  rw [exec_wrmsrRow]
  exact whenSelected_congr rfl fun h => (exec_wrmsr_of_index (rowSelects_wrmsrRow.mp h)).symm

/-- The selector of the two outside rows is that ECX names no MSR. -/
theorem outside_selector (idx : Word) : (msrOfIndex idx == none) = decide (idx ∉
    [(0x1B : Word), 0x48, 0x49, 0xBD, 0x10A, 0x10B, 0x10F, 0x122, 0x123, 0x1B01]) := by
  rw [Bool.eq_iff_iff, beq_iff_eq, decide_eq_true_iff, msrOfIndex_eq_none_iff]

theorem subleafValid_iff {lp : LogicalProcessor} :
    subleafValid lp = true ↔ lp.ecx.toNat ≤ lp.cfg.maxSubleaf7 := decide_eq_true_iff

/-! ### What CPUID outputs, row by row -/

theorem subleafValid_of_ecx_eq_zero {lp : LogicalProcessor} (h : lp.ecx = 0) :
    subleafValid lp = true := by
  rw [subleafValid_iff, h]
  exact Nat.zero_le _

theorem cpuidOut_leaf7Sub0 {lp : LogicalProcessor} (hleaf : lp.eax = 7) (hsub : lp.ecx = 0) :
    cpuidOut lp = cpuidLeaf7Sub0Out lp := by
  simp [cpuidOut, hleaf, hsub, subleafValid_of_ecx_eq_zero hsub]

theorem cpuidOut_leaf7Sub2 {lp : LogicalProcessor} (hleaf : lp.eax = 7) (hsub : lp.ecx = 2)
    (hvalid : subleafValid lp = true) : cpuidOut lp = cpuidLeaf7Sub2Out lp := by
  simp [cpuidOut, hleaf, hsub, hvalid]

theorem cpuidOut_leaf7Other {lp : LogicalProcessor} (hleaf : lp.eax = 7) (h0 : lp.ecx ≠ 0)
    (h2 : lp.ecx ≠ 2) (hvalid : subleafValid lp = true) :
    cpuidOut lp = cpuidOtherOut 7 lp.ecx lp := by
  rw [cpuidOut, if_pos hleaf, if_neg (by simp [hvalid]), if_neg h0, if_neg h2]

theorem cpuidOut_otherLeaf {lp : LogicalProcessor} (hleaf : lp.eax ≠ 7) :
    cpuidOut lp = cpuidOtherOut lp.eax lp.ecx lp := if_neg hleaf

theorem exec_cpuidLeaf7Sub0 (s : State) :
    exec .cpuidLeaf7Sub0 s = whenSelected (rowSelects .cpuidLeaf7Sub0 s.cur) (exec .cpuid s) := by
  refine whenSelected_congr ?_ fun h => ?_
  · rw [rowSelects, Bool.eq_iff_iff, decide_eq_true_iff]
    simp only [Bool.and_eq_true, beq_iff_eq]
  · simp only [Bool.and_eq_true, beq_iff_eq] at h
    exact cpuidComplete_congr (cpuidOut_leaf7Sub0 h.1 h.2).symm

theorem exec_cpuidLeaf7Sub2 (s : State) :
    exec .cpuidLeaf7Sub2 s = whenSelected (rowSelects .cpuidLeaf7Sub2 s.cur) (exec .cpuid s) := by
  refine whenSelected_congr ?_ fun h => ?_
  · rw [rowSelects, Bool.eq_iff_iff, decide_eq_true_iff]
    simp only [Bool.and_eq_true, beq_iff_eq, subleafValid_iff, and_assoc]
    refine and_congr_right fun _ => and_congr_right fun hsub => ?_
    rw [hsub]
    rfl
  · simp only [Bool.and_eq_true, beq_iff_eq] at h
    obtain ⟨⟨hleaf, hsub⟩, hvalid⟩ := h
    exact cpuidComplete_congr (cpuidOut_leaf7Sub2 hleaf hsub hvalid).symm

theorem exec_cpuidLeaf7Invalid_eq (s : State) :
    exec .cpuidLeaf7Invalid s =
      whenSelected (rowSelects .cpuidLeaf7Invalid s.cur) (exec .cpuid s) := by
  refine whenSelected_congr ?_ fun h => ?_
  · rw [rowSelects, Bool.eq_iff_iff, decide_eq_true_iff]
    simp only [Bool.and_eq_true, beq_iff_eq, Bool.not_eq_true', subleafValid_eq_false_iff]
  · simp only [Bool.and_eq_true, beq_iff_eq, Bool.not_eq_true'] at h
    exact cpuidComplete_congr (cpuidOut_of_invalid_subleaf h.1 h.2).symm

theorem exec_cpuidLeaf7Other (s : State) :
    exec .cpuidLeaf7Other s = whenSelected (rowSelects .cpuidLeaf7Other s.cur) (exec .cpuid s) := by
  refine whenSelected_congr ?_ fun h => ?_
  · rw [rowSelects, Bool.eq_iff_iff, decide_eq_true_iff]
    simp only [Bool.and_eq_true, beq_iff_eq, bne_iff_ne, subleafValid_iff, and_assoc]
  · simp only [Bool.and_eq_true, beq_iff_eq, bne_iff_ne] at h
    obtain ⟨⟨⟨hleaf, h0⟩, h2⟩, hvalid⟩ := h
    exact cpuidComplete_congr (cpuidOut_leaf7Other hleaf h0 h2 hvalid).symm

theorem exec_cpuidOtherLeaf (s : State) :
    exec .cpuidOtherLeaf s = whenSelected (rowSelects .cpuidOtherLeaf s.cur) (exec .cpuid s) := by
  refine whenSelected_congr ?_ fun h => ?_
  · rw [rowSelects, Bool.eq_iff_iff, decide_eq_true_iff, bne_iff_ne]
  · exact cpuidComplete_congr (cpuidOut_otherLeaf (bne_iff_ne.mp h)).symm

/-! ### Every row at once -/

/-- R133 for every row at once: a row that is not its own instruction is the instruction behind the
selector. -/
theorem exec_selectorRow (i : Instr) (s : State) (hrow : i.base ≠ i) :
    exec i s = whenSelected (rowSelects i s.cur) (exec i.base s) := by
  cases i with
  | cpuidLeaf7Sub0 => exact exec_cpuidLeaf7Sub0 s
  | cpuidLeaf7Sub2 => exact exec_cpuidLeaf7Sub2 s
  | cpuidLeaf7Invalid => exact exec_cpuidLeaf7Invalid_eq s
  | cpuidLeaf7Other => exact exec_cpuidLeaf7Other s
  | cpuidOtherLeaf => exact exec_cpuidOtherLeaf s
  | rdmsrOutside =>
    exact whenSelected_congr (outside_selector _) fun h => (exec_rdmsr_of_outside (beq_iff_eq.mp h)).symm
  | wrmsrOutside =>
    exact whenSelected_congr (outside_selector _) fun h => (exec_wrmsr_of_outside (beq_iff_eq.mp h)).symm
  | wrmsrMcheck =>
    refine whenSelected_congr rfl fun h => (exec_wrmsr_of_outside ?_).symm
    rw [beq_iff_eq.mp h, msrOfIndex_mcheck]
  | rdmsrArchCapabilities => exact exec_rdmsrRow_eq .archCapabilities s
  | rdmsrSpecCtrl => exact exec_rdmsrRow_eq .specCtrl s
  | rdmsrPredCmd => exact exec_rdmsrRow_eq .predCmd s
  | rdmsrFlushCmd => exact exec_rdmsrRow_eq .flushCmd s
  | rdmsrMcuOptCtrl => exact exec_rdmsrRow_eq .mcuOptCtrl s
  | rdmsrTsxCtrl => exact exec_rdmsrRow_eq .tsxCtrl s
  | rdmsrTsxForceAbort => exact exec_rdmsrRow_eq .tsxForceAbort s
  | rdmsrUarchMiscCtl => exact exec_rdmsrRow_eq .uarchMiscCtl s
  | rdmsrXapicDisableStatus => exact exec_rdmsrRow_eq .xapicDisableStatus s
  | rdmsrApicBase => exact exec_rdmsrRow_eq .apicBase s
  | wrmsrArchCapabilities => exact exec_wrmsrRow_eq .archCapabilities s
  | wrmsrSpecCtrl => exact exec_wrmsrRow_eq .specCtrl s
  | wrmsrPredCmd => exact exec_wrmsrRow_eq .predCmd s
  | wrmsrFlushCmd => exact exec_wrmsrRow_eq .flushCmd s
  | wrmsrMcuOptCtrl => exact exec_wrmsrRow_eq .mcuOptCtrl s
  | wrmsrTsxCtrl => exact exec_wrmsrRow_eq .tsxCtrl s
  | wrmsrTsxForceAbort => exact exec_wrmsrRow_eq .tsxForceAbort s
  | wrmsrUarchMiscCtl => exact exec_wrmsrRow_eq .uarchMiscCtl s
  | wrmsrXapicDisableStatus => exact exec_wrmsrRow_eq .xapicDisableStatus s
  | wrmsrApicBase => exact exec_wrmsrRow_eq .apicBase s
  | _ => exact absurd rfl hrow

theorem rowSelects_of_base {i : Instr} (lp : LogicalProcessor) (h : i.base = i) :
    rowSelects i lp = true := by
  cases i with
  | cpuid | rdmsr | wrmsr | verw | xbegin | rdrand | rdseed => rfl
  | monitor | umonitor | umwait | ret | retImm16 => rfl
  | _ => exact absurd h (by simp [Instr.base])

/-- A row does what its instruction does where its selector holds. -/
theorem exec_of_rowSelects {i : Instr} {s : State} (h : rowSelects i s.cur = true) :
    exec i s = exec i.base s := by
  by_cases hrow : i.base = i
  · rw [hrow]
  · rw [exec_selectorRow i s hrow, h, whenSelected_true]

theorem exec_of_not_rowSelects {i : Instr} {s : State} (h : rowSelects i s.cur = false) :
    exec i s = .refused .rowNotSelected := by
  have hrow : i.base ≠ i := fun hrow => by simp [rowSelects_of_base s.cur hrow] at h
  rw [exec_selectorRow i s hrow, h, whenSelected_false]

/-! ### The row the machine picks -/

theorem selectCpuid_spec (lp : LogicalProcessor) :
    rowSelects (selectCpuid lp) lp = true ∧ (selectCpuid lp).base = .cpuid := by
  unfold selectCpuid
  split_ifs with hleaf hvalid h0 h2
  · rw [subleafValid_eq_false_iff] at hvalid
    simp [rowSelects, Instr.base, hleaf, hvalid]
  · simp [rowSelects, Instr.base, hleaf, h0]
  · have hmax : 2 ≤ lp.cfg.maxSubleaf7 := by
      have := subleafValid_iff.mp (Bool.eq_true_of_not_eq_false hvalid)
      rwa [h2] at this
    simp [rowSelects, Instr.base, hleaf, h2, hmax]
  · have hmax := subleafValid_iff.mp (Bool.eq_true_of_not_eq_false hvalid)
    simp only [rowSelects, Instr.base, decide_eq_true_eq, and_true]
    exact ⟨hleaf, h0, h2, hmax⟩
  · simp only [rowSelects, Instr.base, decide_eq_true_eq, and_true]
    exact hleaf

theorem selectRdmsr_msrIndex (m : Msr) : selectRdmsr (msrIndex m) = rdmsrRow m := by
  cases m <;> rfl

theorem selectWrmsr_msrIndex (m : Msr) : selectWrmsr (msrIndex m) = wrmsrRow m := by
  cases m <;> rfl

theorem base_rdmsrRow (m : Msr) : (rdmsrRow m).base = .rdmsr := by
  cases m <;> rfl

theorem base_wrmsrRow (m : Msr) : (wrmsrRow m).base = .wrmsr := by
  cases m <;> rfl

theorem selectRdmsr_spec (lp : LogicalProcessor) :
    rowSelects (selectRdmsr lp.ecx) lp = true ∧ (selectRdmsr lp.ecx).base = .rdmsr := by
  obtain ⟨m, hm⟩ | hnone := msrIndex_or_outside lp.ecx
  · rw [hm, selectRdmsr_msrIndex, rowSelects_rdmsrRow]
    exact ⟨hm, base_rdmsrRow m⟩
  · have hrow : selectRdmsr lp.ecx = .rdmsrOutside := by rw [selectRdmsr, hnone]
    rw [hrow]
    exact ⟨decide_eq_true ((msrOfIndex_eq_none_iff _).mp hnone), rfl⟩

theorem selectWrmsr_spec (lp : LogicalProcessor) :
    rowSelects (selectWrmsr lp.ecx) lp = true ∧ (selectWrmsr lp.ecx).base = .wrmsr := by
  obtain ⟨m, hm⟩ | hnone := msrIndex_or_outside lp.ecx
  · rw [hm, selectWrmsr_msrIndex, rowSelects_wrmsrRow]
    exact ⟨hm, base_wrmsrRow m⟩
  · have hrow : selectWrmsr lp.ecx = if lp.ecx = 0x79 then .wrmsrMcheck else .wrmsrOutside := by
      rw [selectWrmsr, hnone]
    rw [hrow]
    split
    next h => exact ⟨decide_eq_true h, rfl⟩
    next => exact ⟨decide_eq_true ((msrOfIndex_eq_none_iff _).mp hnone), rfl⟩

theorem select_spec {i : Instr} (s : State) (h : i.base = i) :
    rowSelects (select i s) s.cur = true ∧ (select i s).base = i := by
  cases i with
  | cpuid => exact selectCpuid_spec s.cur
  | rdmsr => exact selectRdmsr_spec s.cur
  | wrmsr => exact selectWrmsr_spec s.cur
  | _ => exact ⟨rowSelects_of_base s.cur h, h⟩

theorem exec_select {i : Instr} (s : State) (h : i.base = i) : exec (select i s) s = exec i s := by
  obtain ⟨hselects, hbase⟩ := select_spec s h
  rw [exec_of_rowSelects hselects, hbase]

/-- Settles O6: a row is its instruction behind its selector, and the machine picks a row whose selector
holds. -/
theorem selectorRowsAgree : Obligations.SelectorRowsAgree := by
  refine ⟨fun i s h => exec_of_rowSelects h, fun i s h => exec_of_not_rowSelects h,
    fun i s h => ?_⟩
  obtain ⟨hselects, hbase⟩ := select_spec s h
  exact ⟨hselects, hbase, exec_select s h⟩

/-! ### A turn of the executing logical processor -/

/-- The bytes at `ip` spell an instruction and no abort is due: the turn is `exec` of it. -/
theorem runCur_of_decoded {s : State} {i : Instr} {rest : List Byte}
    (hdue : rtmMustAbort s.cur = false) (hfetch : fetch s = .instr i rest) :
    runCur s = exec i s := by
  obtain ⟨-, hbase, -⟩ := decode_isEncodingOf _ i rest hfetch
  rw [runCur, hdue, if_neg Bool.false_ne_true, runInstr, hfetch]
  exact exec_select s hbase

theorem runCur_of_rejected {s : State} {why : DecodeReject}
    (hdue : rtmMustAbort s.cur = false) (hfetch : fetch s = .rejected why) :
    runCur s = .refused (.undecoded why) := by
  rw [runCur, hdue, if_neg Bool.false_ne_true, runInstr, hfetch]

theorem step_of_pending_nil {s : State} (h : s.pending = []) : step s = runCur s := by
  rw [step, h]

theorem step_of_pending_execute {s : State} {q : List Input} (h : s.pending = .execute :: q) :
    step s = runCur { s with pending := q } := by
  rw [step, h]

theorem step_of_pending_event {s : State} {e : EnvEvent} {q : List Input}
    (h : s.pending = .event e :: q) : step s = applyEvent e { s with pending := q } := by
  rw [step, h]

/-- Settles O5: the queue decides between turn and event, and a turn is `exec` of what `fetch` reads. -/
theorem stepRunsDecodedInstruction : Obligations.StepRunsDecodedInstruction := by
  refine ⟨fun s i rest hdue hdecode => ⟨fun hq => ?_, fun q hq => ?_⟩,
    fun s e q hq => step_of_pending_event hq⟩
  · rw [step_of_pending_nil hq, runCur_of_decoded hdue hdecode]
  · rw [step_of_pending_execute hq]
    exact runCur_of_decoded hdue hdecode

/-- Settles O4: what the decoder accepts is an encoding, and a turn at rejected bytes is refused. -/
theorem otherBytesAreRefused : Obligations.OtherBytesAreRefused :=
  ⟨fun _ h => decode_rejected_of_no_encoding h,
    fun _ hp _ hi rest => decode_rejected_of_prefix hp hi rest,
    fun _ _ hq hdue hdecode => (step_of_pending_nil hq).trans (runCur_of_rejected hdue hdecode)⟩

/-! ### Bytes placed at `ip` -/

/-- Bytes placed at an address are what stands there, followed by what stood behind them. -/
theorem Memory.bytesAt_writeAll (m : Memory) (k n : Nat) (vs : List Byte) (hn : vs.length ≤ n) :
    ∃ rest, Memory.bytesAt (Memory.writeAll m k vs) k n = vs ++ rest ∧
      (vs.length = n → rest = []) := by
  refine ⟨_, Memory.bytesAt_of_reads _ k n vs hn fun j hj => Memory.read_writeAll_in m k j vs hj,
    fun h => ?_⟩
  rw [h, Nat.sub_self]
  rfl

theorem Memory.read_writeAll_outside (m : Memory) {k a : Nat} {vs : List Byte}
    (h : a < k ∨ k + vs.length ≤ a) :
    Memory.read (Memory.writeAll m k vs) a = Memory.read m a :=
  h.elim (Memory.read_writeAll_below m k a vs) (Memory.read_writeAll_above m k a vs)

theorem encode_length_le {i : Instr} (h : i.wf = true) : (encode i).length ≤ maxInstrBytes := by
  have hstatement : Laws.EncodedLength.Statement i := by
    cases i with
    | verw op => exact Laws.EncodedLength.verw op
    | xbegin rel => exact Laws.EncodedLength.xbegin rel
    | rdrand r => exact Laws.EncodedLength.rdrand r
    | rdseed r => exact Laws.EncodedLength.rdseed r
    | umonitor r => exact Laws.EncodedLength.umonitor r
    | umwait r => exact Laws.EncodedLength.umwait r
    | retImm16 imm => exact Laws.EncodedLength.retImm16 imm
    | _ => exact fun _ => by decide
  exact (hstatement h).2

/-- Settles O7: the bytes placed are fetched whole, and they decode to their instruction whatever
follows. -/
theorem placedEncodingRuns : Obligations.PlacedEncodingRuns := by
  intro s i hwf hq hdue
  obtain ⟨rest, hbytes, -⟩ :=
    Memory.bytesAt_writeAll s.code s.cur.ip maxInstrBytes (encode i) (encode_length_le hwf)
  refine ⟨?_, fun a ha => Memory.read_writeAll_outside s.code ha⟩
  refine (step_of_pending_nil (by exact hq)).trans (runCur_of_decoded (rest := rest) hdue ?_)
  exact (congrArg decode hbytes).trans (decodeInvertsEncode i rest hwf)

/-! ### A table word placed at `ip` (entry 8) -/

theorem tableBytes_length {nbits : Nat} (w : Nat) (h : nbits ≤ 64) :
    (tableBytes nbits w).length = maxInstrBytes := by
  unfold tableBytes
  dsimp only
  split
  next => simp [bytesFrom]
  next =>
    simp only [bytesFrom, maxInstrBytes, List.length_append, List.length_reverse, List.length_map,
      List.length_range, List.length_replicate]
    omega

theorem decodeTableWord_eq_some {nbits w : Nat} {i : Instr} (h : decodeTableWord nbits w = some i) :
    ∃ rest, decode (tableBytes nbits w) = .instr i rest := by
  unfold decodeTableWord at h
  split at h
  next j rest hd =>
    cases h
    exact ⟨rest, hd⟩
  next => cases h

/-- Settles O8: the table bytes fill the longest instruction, so the fetch reads exactly them. -/
theorem loadedWordRuns : Obligations.LoadedWordRuns := by
  intro s nbits w i hbits hq hdue hword
  have hlen := tableBytes_length w hbits
  obtain ⟨rest, hdecode⟩ := decodeTableWord_eq_some hword
  obtain ⟨behind, hbytes, hnone⟩ :=
    Memory.bytesAt_writeAll s.code s.cur.ip maxInstrBytes (tableBytes nbits w) hlen.le
  rw [hnone hlen, List.append_nil] at hbytes
  refine ⟨?_, rfl, fun a ha => Memory.read_writeAll_outside s.code (hlen ▸ ha)⟩
  refine (step_of_pending_nil (by exact hq)).trans (runCur_of_decoded (rest := rest) hdue ?_)
  exact (congrArg decode hbytes).trans hdecode

end Sys2Proof.Machine
end

section
/-! The masks of R203 and the MSR values a write, a reset and a microcode load leave, bit by bit. -/

namespace Sys2Proof.Machine

/-! ### The masks of the two registers with one enumeration per field -/

@[simp] theorem getLsbD_specCtrlImplemented (c : Cfg) (n : Nat) :
    (specCtrlImplemented c).getLsbD n = specCtrlBitEnumerated c n := by
  simp only [specCtrlImplemented, BitVec.getLsbD_or, getLsbD_maskBit]
  match n with
  | 0 | 1 | 2 | 3 | 4 | 5 | 6 | 7 | 8 | 9 | 10 => simp [specCtrlBitEnumerated]
  | n + 11 => simp [specCtrlBitEnumerated]

@[simp] theorem getLsbD_mcuImplemented (c : Cfg) (n : Nat) :
    (mcuImplemented c).getLsbD n = mcuBitEnumerated c n := by
  simp only [mcuImplemented, BitVec.getLsbD_or, getLsbD_maskBit]
  match n with
  | 0 | 1 | 2 | 3 | 4 | 5 | 6 | 7 => simp [mcuBitEnumerated]
  | n + 8 => simp [mcuBitEnumerated]

theorem mcuBitEnumerated_lt {c : Cfg} {n : Nat} (h : mcuBitEnumerated c n = true) : n < 64 := by
  rw [← getLsbD_mcuImplemented] at h
  exact BitVec.lt_of_getLsbD h

/-- A bit of a small constant mask of ones. -/
theorem getLsbD_ones (k n : Nat) (hk : k ≤ 64) :
    (BitVec.ofNat 64 (2 ^ k - 1)).getLsbD n = decide (n < k) := by
  rw [BitVec.getLsbD_ofNat, Nat.testBit_two_pow_sub_one]
  grind

/-- `W(idx)` of R203 is the table of writable positions. -/
theorem getLsbD_msrNotReserved (m : Msr) (c : Cfg) (n : Nat) (hn : n < 64) :
    (msrNotReserved m c).getLsbD n = bitMayBeSet m c n := by
  cases m with
  | specCtrl => exact getLsbD_specCtrlImplemented c n
  | mcuOptCtrl => exact getLsbD_mcuImplemented c n
  | predCmd | flushCmd | uarchMiscCtl =>
    exact (getLsbD_ones 1 n (by omega)).trans (decide_eq_decide.mpr Nat.lt_one_iff)
  | tsxCtrl =>
    exact (getLsbD_ones 2 n (by omega)).trans (decide_eq_decide.mpr Nat.lt_succ_iff)
  | tsxForceAbort =>
    exact (getLsbD_ones 3 n (by omega)).trans (decide_eq_decide.mpr Nat.lt_succ_iff)
  | xapicDisableStatus | archCapabilities => exact BitVec.getLsbD_zero
  | apicBase => exact (getLsbD_ones 64 n le_rfl).trans (decide_eq_true hn)

theorem getLsbD_msrReserved (m : Msr) (c : Cfg) (n : Nat) (hn : n < 64) :
    (msrReserved m c).getLsbD n = !bitMayBeSet m c n := by
  rw [msrReserved, BitVec.getLsbD_not, getLsbD_msrNotReserved m c n hn]
  simp [hn]

/-- No position is reserved that a value sets, exactly where each of its ones may be set (R197). -/
theorem and_msrReserved_eq_zero_iff {m : Msr} {c : Cfg} {v : Quad} :
    v &&& msrReserved m c = 0 ↔ ∀ n, v.getLsbD n = true → bitMayBeSet m c n = true := by
  refine (and_not_eq_zero_iff v (msrNotReserved m c)).trans (forall_congr' fun n => ?_)
  refine imp_congr_right fun hv => ?_
  rw [getLsbD_msrNotReserved m c n (BitVec.lt_of_getLsbD hv)]

theorem and_msrReserved_ne_zero_iff {m : Msr} {c : Cfg} {v : Quad} :
    v &&& msrReserved m c ≠ 0 ↔ ∃ n, v.getLsbD n = true ∧ bitMayBeSet m c n = false := by
  rw [ne_eq, and_msrReserved_eq_zero_iff]
  simp

/-! ### IA32_MCU_OPT_CTRL -/

/-- Bit `m` after a bit inside the width is set. -/
theorem getLsbD_setBit_of_lt {w : Nat} (v : BitVec w) {n : Nat} (m : Nat) (b : Bool) (h : n < w) :
    (setBit v n b).getLsbD m = if m = n then b else v.getLsbD m := by
  rw [getLsbD_setBit]
  grind

theorem getLsbD_mcuWriteField {k : Nat} (e : Bool) (v r : Quad) (n : Nat) (hk : k < 64) :
    (mcuWriteField k e v r).getLsbD n =
      if e = true ∧ n = k then v.getLsbD k else r.getLsbD n := by
  cases e with
  | false => simp [mcuWriteField]
  | true => simp only [mcuWriteField, if_true, getLsbD_setBit_of_lt _ _ _ hk, true_and]

theorem getLsbD_mcuWriteRtm (v : Quad) (lp : LogicalProcessor) (r : Quad) (n : Nat) :
    (mcuWriteRtm v lp r).getLsbD n =
      if (lp.cfg.mcuRtmBits && !lp.mcuOptCtrl.getLsbD 2) = true ∧ n = 1 then v.getLsbD 1
      else r.getLsbD n :=
  getLsbD_mcuWriteField (k := 1) (lp.cfg.mcuRtmBits && !lp.mcuOptCtrl.getLsbD 2) v r n (by omega)

theorem getLsbD_mcuWriteGds (v : Quad) (lp : LogicalProcessor) (r : Quad) (n : Nat) :
    (mcuWriteGds v lp r).getLsbD n =
      if archCapBit lp.cfg 25 = true ∧ n = 4 then !gdsLockWritten v lp && v.getLsbD 4
      else if archCapBit lp.cfg 25 = true ∧ n = 5 then gdsLockWritten v lp
      else r.getLsbD n := by
  unfold mcuWriteGds
  cases archCapBit lp.cfg 25 with
  | false => simp
  | true =>
    rw [if_pos rfl, getLsbD_setBit_of_lt _ _ _ (by omega), getLsbD_setBit_of_lt _ _ _ (by omega)]
    simp

/-- R291 bit by bit: locked and read-only fields keep their value, GDS_MITG_LOCK only rises, and under it
GDS_MITG_DIS is 0. -/
theorem getLsbD_mcuWritten (v : Quad) (lp : LogicalProcessor) (n : Nat) :
    (mcuWritten v lp).getLsbD n =
      if mcuBitEnumerated lp.cfg n = false then lp.mcuOptCtrl.getLsbD n
      else if n = 1 then
        (if lp.mcuOptCtrl.getLsbD 2 then lp.mcuOptCtrl.getLsbD 1 else v.getLsbD 1)
      else if n = 2 then lp.mcuOptCtrl.getLsbD 2
      else if n = 4 then !gdsLockWritten v lp && v.getLsbD 4
      else if n = 5 then gdsLockWritten v lp
      else v.getLsbD n := by
  simp only [mcuWritten, getLsbD_mcuWriteGds, getLsbD_mcuWriteRtm,
    getLsbD_mcuWriteField _ _ _ _ (show 0 < 64 by omega),
    getLsbD_mcuWriteField _ _ _ _ (show 3 < 64 by omega),
    getLsbD_mcuWriteField _ _ _ _ (show 6 < 64 by omega),
    getLsbD_mcuWriteField _ _ _ _ (show 7 < 64 by omega)]
  match n with
  | 0 | 1 | 2 | 3 | 4 | 5 | 6 | 7 =>
    simp only [mcuBitEnumerated]
    grind
  | n + 8 => simp [mcuBitEnumerated]

/-- What R420 and R427 give each position of IA32_MCU_OPT_CTRL after a reset where it is enumerated. -/
def mcuResetBit (c : Cfg) (n : Nat) : Bool :=
  match n with
  | 1 => c.resetRtmAllow && !c.resetRtmLocked
  | 2 => c.resetRtmLocked
  | 3 => c.resetFbClearDis
  | 5 => c.gdsLockAtMcuLoad
  | 6 => true
  | _ => false

theorem getLsbD_mcuReset (c : Cfg) (n : Nat) :
    (mcuReset c).getLsbD n = (mcuResetBit c n && mcuBitEnumerated c n) := by
  rw [mcuReset, BitVec.getLsbD_and, getLsbD_mcuImplemented]
  simp only [BitVec.getLsbD_or, getLsbD_maskBit]
  match n with
  | 0 | 1 | 2 | 3 | 4 | 5 | 6 => simp [mcuResetBit]
  | n + 7 => simp [mcuResetBit]

/-- R426 and R427 bit by bit: GDS_MITG_DIS goes to 0, GDS_MITG_LOCK is kept, taken up again or set, and a
field that stays enumerated is kept, one that is new gets its reset value. -/
theorem getLsbD_mcuLoaded (old c : Cfg) (held : Bool) (v : Quad) (n : Nat) :
    (mcuLoaded old c held v).getLsbD n =
      if n = 5 then archCapBit c 25 && (v.getLsbD 5 || held || c.gdsLockAtMcuLoad)
      else if n = 4 then false
      else mcuBitEnumerated c n &&
        (if mcuBitEnumerated old n then v.getLsbD n else mcuResetBit c n) := by
  rw [mcuLoaded, getLsbD_setBit_of_lt _ _ _ (by omega), getLsbD_setBit_of_lt _ _ _ (by omega)]
  simp only [BitVec.getLsbD_or, BitVec.getLsbD_and, getLsbD_mcuImplemented, getLsbD_mcuReset,
    BitVec.getLsbD_not]
  by_cases hn : n < 64
  · grind
  · have : mcuBitEnumerated c n = false :=
      Bool.eq_false_iff.mpr fun h => hn (mcuBitEnumerated_lt h)
    simp [this]

end Sys2Proof.Machine
end

section
/-! What an instruction that completes can do, said once, and the frames that follow (R20, R23, R118,
R392). -/

namespace Sys2Proof.Machine

/-! ### The ways of completing -/

/-- The ways an instruction that is its own row completes, each with the state it leaves. -/
inductive Completion (s : State) : Instr → State → Prop
  | cpuid (o : CpuidOut) :
    Completion s .cpuid (s.onCur fun lp => (putCpuid o lp).advance 2)
  | rdmsr (m : Msr) (hecx : s.cur.ecx = msrIndex m) (hlicensed : readLicensed m s.cur = true) :
    Completion s .rdmsr (s.onCur fun lp => (putEdxEax (msrRead m lp) lp).advance 2)
  | wrmsr (m : Msr) (hecx : s.cur.ecx = msrIndex m)
      (hlicensed : writeLicensed m (edxEax s.cur) s.cur = true) :
    Completion s .wrmsr (s.onCur fun lp => (msrWrite m (edxEax s.cur) lp).advance 2)
  /-- IA32_TSX_FORCE_ABORT under the policy `ignore`, the only write that is clamped (R199). -/
  | wrmsrClamped (v : Quad) (hecx : s.cur.ecx = msrIndex .tsxForceAbort) :
    Completion s .wrmsr (s.onCur fun lp => (msrWrite .tsxForceAbort v lp).advance 2)
  | verw (op : RmOperand) :
    Completion s (.verw op) (s.onCur fun lp => (verwEffect lp).advance (verwLength op))
  | xbegin (rel : RelOperand) (cause : AbortCause) (hcause : xbeginCause s = some cause) :
    Completion s (.xbegin rel) ((s.drawnFor cause).onCur fun lp =>
      lp.rtmAbort cause (abortCode cause s.draws lp.id) (fallbackAddress lp.ip rel))
  | random (i : Instr) (seed : Bool) (r : RegField) (hi : i = .rdrand r ∨ i = .rdseed r) :
    Completion s i (s.drawn.onCur fun lp =>
      ((putReg r (Config.freeRandom s.draws) lp).note (.random seed (srbdsNote lp))).advance 3)
  | monitor : Completion s .monitor ((monitorsFlushed s).onCur (LogicalProcessor.advance 3))
  | umonitor (r : RegField) :
    Completion s (.umonitor r) ((monitorsFlushed s).onCur fun lp =>
      (lp.note (.umonitor (!ignUmonitor lp))).advance 4)
  | umwait (r : RegField) :
    Completion s (.umwait r) (s.drawn.onCur fun lp =>
      (lp.note (.umwait (Config.freeWaitEntered s.draws))).advance 4)
  | ret (i : Instr) (hi : i = .ret ∨ ∃ imm, i = .retImm16 imm) (note : Effect) (target : Nat) :
    Completion s i (s.drawn.onCur fun lp => { lp.note note with ip := target })

theorem completion_rdmsrOf {m : Msr} {s t : State} (hecx : s.cur.ecx = msrIndex m)
    (h : rdmsrOf m s = .next t) : Completion s .rdmsr t := by
  obtain ⟨hcpl, hexists, hclass, rfl⟩ := rdmsrOf_next h
  exact .rdmsr m hecx (by simp [readLicensed, hcpl, hexists, hclass])

theorem msrClamps_eq_true {m : Msr} {c : Cfg} (h : msrClamps m c = true) : m = .tsxForceAbort := by
  cases m with
  | tsxForceAbort => rfl
  | _ => exact absurd h Bool.false_ne_true

/-- Only the executing logical processor counts in a change of it. -/
theorem State.onCur_congr {s : State} {f g : LogicalProcessor → LogicalProcessor}
    (h : f s.cur = g s.cur) : s.onCur f = s.onCur g := by
  rw [State.onCur, State.onCur, h]

theorem completion_wrmsrOf {m : Msr} {s t : State} (hecx : s.cur.ecx = msrIndex m)
    (h : wrmsrOf m s = .next t) : Completion s .wrmsr t := by
  obtain ⟨hcpl, hexists, hclass, hreserved, houtside, hwrite⟩ := wrmsrOf_next h
  obtain ⟨hlegal, rfl⟩ | ⟨-, hclamps, rfl⟩ := hwrite
  · refine .wrmsr m hecx ?_
    simp [writeLicensed, hcpl, hexists, hclass, hreserved, houtside, hlegal]
  · obtain rfl := msrClamps_eq_true hclamps
    rw [State.onCur_congr (g := fun lp =>
      (msrWrite .tsxForceAbort (msrClamp .tsxForceAbort (edxEax s.cur) s.cur) lp).advance 2) rfl]
    exact .wrmsrClamped _ hecx

theorem completion_execXbegin {rel : RelOperand} {s t : State} (h : execXbegin rel s = .next t) :
    Completion s (.xbegin rel) t := by
  unfold execXbegin at h
  split at h
  next cause hcause =>
    obtain rfl := complete_next h
    exact .xbegin rel cause hcause
  next => exact absurd h (refuse_ne_next _ _)

theorem completion_execRdmsr {s t : State} (h : exec .rdmsr s = .next t) :
    Completion s .rdmsr t := by
  obtain ⟨m, hecx⟩ | hnone := msrIndex_or_outside s.cur.ecx
  · rw [exec_rdmsr_of_index hecx] at h
    exact completion_rdmsrOf hecx h
  · rw [exec_rdmsr_of_outside hnone] at h
    exact absurd h (accessOutside_ne_next _ _)

theorem completion_execWrmsr {s t : State} (h : exec .wrmsr s = .next t) :
    Completion s .wrmsr t := by
  obtain ⟨m, hecx⟩ | hnone := msrIndex_or_outside s.cur.ecx
  · rw [exec_wrmsr_of_index hecx] at h
    exact completion_wrmsrOf hecx h
  · rw [exec_wrmsr_of_outside hnone] at h
    exact absurd h (accessOutside_ne_next _ _)

theorem completion_of_exec_base {i : Instr} {s t : State} (hrow : i.base = i)
    (h : exec i s = .next t) : Completion s i t := by
  cases i with
  | cpuid =>
    obtain rfl := complete_next h
    exact .cpuid (cpuidOut s.cur)
  | rdmsr => exact completion_execRdmsr h
  | wrmsr => exact completion_execWrmsr h
  | verw op =>
    obtain rfl := complete_next h
    exact .verw op
  | xbegin rel => exact completion_execXbegin h
  | rdrand r =>
    obtain rfl := complete_next h
    exact .random _ false r (.inl rfl)
  | rdseed r =>
    obtain rfl := complete_next h
    exact .random _ true r (.inr rfl)
  | monitor =>
    obtain rfl := complete_next h
    exact .monitor
  | umonitor r =>
    obtain rfl := complete_next h
    exact .umonitor r
  | umwait r =>
    obtain rfl := complete_next h
    exact .umwait r
  | ret =>
    obtain rfl := complete_next h
    exact .ret _ (.inl rfl) _ _
  | retImm16 imm =>
    obtain rfl := complete_next h
    exact .ret _ (.inr ⟨imm, rfl⟩) _ _
  | _ => exact absurd hrow (by simp [Instr.base])

/-- Whatever row completes, its instruction has completed in one of the ways listed. -/
theorem completion_of_exec {i : Instr} {s t : State} (h : exec i s = .next t) :
    Completion s i.base t := by
  cases hselects : rowSelects i s.cur with
  | true =>
    rw [exec_of_rowSelects hselects] at h
    exact completion_of_exec_base i.base_base h
  | false =>
    rw [exec_of_not_rowSelects hselects] at h
    cases h

/-- Only CPUID, RDMSR and WRMSR have selector rows. -/
theorem eq_of_base {i j : Instr} (h : i.base = j) (hcpuid : j ≠ .cpuid) (hrdmsr : j ≠ .rdmsr)
    (hwrmsr : j ≠ .wrmsr) : i = j := by
  cases i with
  | verw | xbegin | rdrand | rdseed | monitor | umonitor | umwait | ret | retImm16 => exact h
  | cpuid | cpuidLeaf7Sub0 | cpuidLeaf7Sub2 | cpuidLeaf7Invalid | cpuidLeaf7Other
  | cpuidOtherLeaf => exact absurd h.symm hcpuid
  | rdmsr | rdmsrArchCapabilities | rdmsrSpecCtrl | rdmsrPredCmd | rdmsrFlushCmd | rdmsrMcuOptCtrl
  | rdmsrTsxCtrl | rdmsrTsxForceAbort | rdmsrUarchMiscCtl | rdmsrXapicDisableStatus
  | rdmsrApicBase | rdmsrOutside => exact absurd h.symm hrdmsr
  | _ => exact absurd h.symm hwrmsr

/-- A WRMSR that completes writes the MSR in ECX. -/
theorem Completion.exists_msrWrite {s t : State} (h : Completion s .wrmsr t) :
    ∃ m v, s.cur.ecx = msrIndex m ∧ t = s.onCur fun lp => (msrWrite m v lp).advance 2 := by
  generalize hi : Instr.wrmsr = i at h
  cases h with
  | wrmsr m hecx => exact ⟨m, _, hecx, rfl⟩
  | wrmsrClamped v hecx => exact ⟨_, v, hecx, rfl⟩
  | random _ _ _ hr => subst hi; simp at hr
  | ret _ hr => subst hi; simp at hr
  | _ => cases hi

/-! ### The frame of the executing logical processor -/

/-- The fields of a logical processor that no instruction changes: its place, configuration and context
(R21, R22), the held lock, and what reset and an abort take their values from. -/
structure SameContext (lp lp' : LogicalProcessor) : Prop where
  id : lp'.id = lp.id
  core : lp'.core = lp.core
  coreModule : lp'.coreModule = lp.coreModule
  present : lp'.present = lp.present
  cfg : lp'.cfg = lp.cfg
  cpl : lp'.cpl = lp.cpl
  inEnclave : lp'.inEnclave = lp.inEnclave
  gdsLockHeld : lp'.gdsLockHeld = lp.gdsLockHeld
  apicOther : lp'.apicOther = lp.apicOther
  start : lp'.start = lp.start
  rtmFallback : lp'.rtmFallback = lp.rtmFallback

theorem sameContext_msrWrite (m : Msr) (v : Quad) (lp : LogicalProcessor) :
    SameContext lp (msrWrite m v lp) := by
  have h := msrWrite_frame m v lp
  constructor <;> simp [h]

theorem sameContext_putReg (r : RegField) (v : Word) (lp : LogicalProcessor) :
    SameContext lp (putReg r v lp) := by
  rw [putReg_frame]
  constructor <;> rfl

theorem sameContext_verwEffect (lp : LogicalProcessor) : SameContext lp (verwEffect lp) := by
  unfold verwEffect
  split <;> constructor <;> rfl

/-- Advancing `ip` and noting an effect are outside the context. -/
theorem SameContext.advance {lp lp' : LogicalProcessor} (h : SameContext lp lp') (n : Nat) :
    SameContext lp (lp'.advance n) := by
  constructor <;> simp [h.id, h.core, h.coreModule, h.present, h.cfg, h.cpl, h.inEnclave,
    h.gdsLockHeld, h.apicOther, h.start, h.rtmFallback]

theorem SameContext.note {lp lp' : LogicalProcessor} (h : SameContext lp lp') (e : Effect) :
    SameContext lp (lp'.note e) := by
  constructor <;> simp [h.id, h.core, h.coreModule, h.present, h.cfg, h.cpl, h.inEnclave,
    h.gdsLockHeld, h.apicOther, h.start, h.rtmFallback]

theorem Completion.sameContext {s t : State} {i : Instr} (h : Completion s i t) :
    SameContext s.cur t.cur := by
  cases h with
  | cpuid | rdmsr | wrmsrClamped | umwait | ret => constructor <;> rfl
  | wrmsr m => exact (sameContext_msrWrite m _ s.cur).advance 2
  | verw op => exact (sameContext_verwEffect s.cur).advance _
  | xbegin rel cause => constructor <;> simp
  | random i seed r => exact ((sameContext_putReg r _ s.cur).note _).advance 3
  | monitor | umonitor =>
    constructor <;> simp [monitorsFlushed_cur]

theorem Completion.code {s t : State} {i : Instr} (h : Completion s i t) : t.code = s.code := by
  cases h <;> simp

theorem Completion.pending {s t : State} {i : Instr} (h : Completion s i t) :
    t.pending = s.pending := by
  cases h <;> simp

theorem Completion.others_eq {s t : State} {i : Instr} (h : Completion s i t)
    (hmonitor : i ≠ .monitor) (humonitor : ∀ r, i ≠ .umonitor r) : t.others = s.others := by
  cases h with
  | monitor => exact absurd rfl hmonitor
  | umonitor r => exact absurd rfl (humonitor r)
  | _ => simp

/-- Of another logical processor at most the record of effects grows, where the flush may reach it. -/
theorem Completion.others {s t : State} {i : Instr} (h : Completion s i t) :
    List.Forall₂ (fun o o' => o' = o ∨
      (monitorFlushMayReach s.cur o = true ∧ o' = o.note (.nearbyFlush s.cur.id)))
      s.others t.others := by
  have unchanged (hsame : t.others = s.others) : List.Forall₂ (fun o o' => o' = o ∨
      (monitorFlushMayReach s.cur o = true ∧ o' = o.note (.nearbyFlush s.cur.id)))
      s.others t.others := by
    rw [hsame]
    exact List.forall₂_same.mpr fun _ _ => .inl rfl
  cases h with
  | monitor => exact monitorsFlushed_others s
  | umonitor => exact monitorsFlushed_others s
  | _ => exact unchanged (by simp)

theorem monitorFlushMayReach_iff {lp t : LogicalProcessor} :
    monitorFlushMayReach lp t = true ↔
      archCapBit lp.cfg 30 = true ∧ lp.mcuOptCtrl.getLsbD 7 = true ∧ t.present = true ∧
        t.id ≠ lp.id ∧ (t.core = lp.core ∨ t.coreModule = lp.coreModule) := by
  simp only [monitorFlushMayReach, monUmonMitg, nearby, Bool.and_eq_true, Bool.or_eq_true, bne_iff_ne,
    beq_iff_eq, and_assoc]

/-- Settles O9: each way of completing keeps the context, the program and the queue, and reaches another
logical processor by the noted flush alone. -/
theorem instructionsTouchOnlyTheirProcessor : Obligations.InstructionsTouchOnlyTheirProcessor := by
  intro i s t h
  have hc := completion_of_exec h
  have ctx := hc.sameContext
  refine ⟨fun hmonitor humonitor => hc.others_eq ?_ ?_, ?_, hc.code, hc.pending,
    fun a => by rw [hc.code], ctx.id, ctx.core, ctx.coreModule, ctx.present, ctx.cfg, ctx.cpl,
    ctx.inEnclave, ctx.gdsLockHeld, ctx.apicOther, ctx.start, ctx.rtmFallback⟩
  · exact fun hbase => hmonitor (eq_of_base hbase (by simp) (by simp) (by simp))
  · exact fun r hbase => humonitor r (eq_of_base hbase (by simp) (by simp) (by simp))
  · refine hc.others.imp fun o o' ho => ho.imp_right fun ⟨hreach, ho'⟩ => ?_
    obtain ⟨hcap, hmitg, hpresent, hid, hnear⟩ := monitorFlushMayReach_iff.mp hreach
    exact ⟨hcap, hmitg, hpresent, hid, hnear, ho'⟩

/-! ### Which instruction changes which field -/

/-- Two logical processors with the same stored MSRs. -/
structure SameMsrs (lp lp' : LogicalProcessor) : Prop where
  specCtrl : lp'.specCtrl = lp.specCtrl
  mcuOptCtrl : lp'.mcuOptCtrl = lp.mcuOptCtrl
  tsxCtrl : lp'.tsxCtrl = lp.tsxCtrl
  tsxForceAbort : lp'.tsxForceAbort = lp.tsxForceAbort
  uarchMiscCtl : lp'.uarchMiscCtl = lp.uarchMiscCtl
  apicExtd : lp'.apicExtd = lp.apicExtd
  xapicDisabled : lp'.xapicDisabled = lp.xapicDisabled

theorem sameMsrs_advance (n : Nat) (lp : LogicalProcessor) : SameMsrs lp (lp.advance n) := by
  constructor <;> rfl

theorem Completion.sameMsrs {s t : State} {i : Instr} (h : Completion s i t) (hi : i ≠ .wrmsr) :
    SameMsrs s.cur t.cur := by
  cases h with
  | wrmsr | wrmsrClamped => exact absurd rfl hi
  | cpuid | rdmsr | umwait | ret => constructor <;> rfl
  | verw op =>
    simp only [State.onCur_cur, verwEffect]
    split <;> constructor <;> rfl
  | xbegin rel cause => constructor <;> simp
  | random i seed r =>
    simp only [State.onCur_cur, State.drawn_cur]
    rw [putReg_frame]
    constructor <;> rfl
  | monitor | umonitor => constructor <;> simp [monitorsFlushed_cur]

/-- A stored field that only writes of `m₀` change is changed only by WRMSR with `m₀` in ECX. -/
theorem Completion.field_eq {α : Type} {field : LogicalProcessor → α} (m₀ : Msr)
    (hsame : ∀ {lp lp'}, SameMsrs lp lp' → field lp' = field lp)
    (hwrite : ∀ m v lp, m ≠ m₀ → field (msrWrite m v lp) = field lp)
    {s t : State} {i : Instr} (h : Completion s i t)
    (hi : i ≠ .wrmsr ∨ s.cur.ecx ≠ msrIndex m₀) : field t.cur = field s.cur := by
  by_cases hwrmsr : i = .wrmsr
  · subst hwrmsr
    obtain ⟨m, v, hecx, rfl⟩ := h.exists_msrWrite
    have hm : m ≠ m₀ := by
      rintro rfl
      exact hi.elim (absurd rfl) (absurd hecx)
    exact (hsame (sameMsrs_advance 2 _)).trans (hwrite m v s.cur hm)
  · exact hsame (h.sameMsrs hwrmsr)

/-- Two logical processors whose stored MSRs differ at most in `m`; only a command register appends to the
event history. -/
structure WritesOnly (m : Msr) (lp lp' : LogicalProcessor) : Prop where
  specCtrl : m ≠ .specCtrl → lp'.specCtrl = lp.specCtrl
  mcuOptCtrl : m ≠ .mcuOptCtrl → lp'.mcuOptCtrl = lp.mcuOptCtrl
  tsxCtrl : m ≠ .tsxCtrl → lp'.tsxCtrl = lp.tsxCtrl
  tsxForceAbort : m ≠ .tsxForceAbort → lp'.tsxForceAbort = lp.tsxForceAbort
  uarchMiscCtl : m ≠ .uarchMiscCtl → lp'.uarchMiscCtl = lp.uarchMiscCtl
  apicExtd : m ≠ .apicBase → lp'.apicExtd = lp.apicExtd
  xapicDisabled : m ≠ .apicBase → lp'.xapicDisabled = lp.xapicDisabled
  events : m ≠ .predCmd → m ≠ .flushCmd → lp'.events = lp.events

/-- A write stores into the fields of its MSR only (R202). -/
theorem msrWrite_writesOnly (m : Msr) (v : Quad) (lp : LogicalProcessor) :
    WritesOnly m lp (msrWrite m v lp) := by
  cases m with
  | predCmd | flushCmd =>
    simp only [msrWrite]
    split <;> constructor <;> simp
  | _ => constructor <;> simp [msrWrite]

theorem Completion.events_eq {s t : State} {i : Instr} (h : Completion s i t)
    (hverw : ∀ op, i ≠ .verw op) (hxbegin : ∀ rel, i ≠ .xbegin rel)
    (hi : i ≠ .wrmsr ∨ (s.cur.ecx ≠ msrIndex .predCmd ∧ s.cur.ecx ≠ msrIndex .flushCmd)) :
    t.cur.events = s.cur.events := by
  cases h with
  | verw op => exact absurd rfl (hverw op)
  | xbegin rel => exact absurd rfl (hxbegin rel)
  | wrmsr m hecx =>
    obtain hi | ⟨hpred, hflush⟩ := hi
    · exact absurd rfl hi
    · exact (msrWrite_writesOnly m _ s.cur).events (fun hm => hpred (hm ▸ hecx))
        fun hm => hflush (hm ▸ hecx)
  | random i seed r =>
    simp only [State.onCur_cur, State.drawn_cur]
    rw [putReg_frame]
    rfl
  | monitor | umonitor => simp [monitorsFlushed_cur]
  | _ => rfl

theorem Completion.inRtm_eq {s t : State} {i : Instr} (h : Completion s i t)
    (hxbegin : ∀ rel, i ≠ .xbegin rel) : t.cur.inRtm = s.cur.inRtm := by
  cases h with
  | xbegin rel => exact absurd rfl (hxbegin rel)
  | wrmsr m => simp [msrWrite_frame]
  | wrmsrClamped v => rfl
  | verw op =>
    simp only [State.onCur_cur, verwEffect]
    split <;> rfl
  | random i seed r =>
    simp only [State.onCur_cur, State.drawn_cur]
    rw [putReg_frame]
    rfl
  | monitor | umonitor => simp [monitorsFlushed_cur]
  | _ => rfl

/-- EBX and ECX are written by CPUID and the random instructions alone, EDX also by RDMSR, EAX also by an
XBEGIN that aborts (R20, R132). -/
theorem Completion.registers_eq {s t : State} {i : Instr} (h : Completion s i t)
    (hcpuid : i ≠ .cpuid) (hrandom : ∀ r, i ≠ .rdrand r ∧ i ≠ .rdseed r) :
    t.cur.ebx = s.cur.ebx ∧ t.cur.ecx = s.cur.ecx ∧
      (i ≠ .rdmsr → t.cur.edx = s.cur.edx ∧
        ((∀ rel, i ≠ .xbegin rel) → t.cur.eax = s.cur.eax)) := by
  cases h with
  | cpuid => exact absurd rfl hcpuid
  | random i seed r hi =>
    obtain rfl | rfl := hi
    · exact absurd rfl (hrandom r).1
    · exact absurd rfl (hrandom r).2
  | rdmsr => exact ⟨rfl, rfl, absurd rfl⟩
  | wrmsr m => simp [msrWrite_frame]
  | xbegin rel =>
    refine ⟨by simp, by simp, fun _ => ⟨by simp, fun hxbegin => absurd rfl (hxbegin rel)⟩⟩
  | verw op =>
    simp only [State.onCur_cur, verwEffect]
    split <;> exact ⟨rfl, rfl, fun _ => ⟨rfl, fun _ => rfl⟩⟩
  | monitor | umonitor => simp [monitorsFlushed_cur]
  | _ => exact ⟨rfl, rfl, fun _ => ⟨rfl, fun _ => rfl⟩⟩

/-- Settles O10: MSR by MSR through the write that changes it; registers, flag and history by the ways of
completing. -/
theorem instructionFrames : Obligations.InstructionFrames := by
  intro i s t h
  have hc := completion_of_exec h
  have own {j : Instr} (hj : j.base = j) (hi : i ≠ j) (hcpuid : j ≠ .cpuid) (hrdmsr : j ≠ .rdmsr)
      (hwrmsr : j ≠ .wrmsr) : i.base ≠ j :=
    fun hbase => hi (eq_of_base hbase hcpuid hrdmsr hwrmsr)
  refine ⟨fun hi => ?_, fun hi => ?_, fun hi => ?_, fun hi => ?_, fun hi => ?_, fun hi => ⟨?_, ?_⟩,
    fun hrandom hcpuid => ?_, fun hxbegin => ?_, fun hverw hxbegin hi => ?_⟩
  · exact hc.field_eq .specCtrl (·.specCtrl) (fun m v lp => (msrWrite_writesOnly m v lp).specCtrl) hi
  · exact hc.field_eq .mcuOptCtrl (·.mcuOptCtrl)
      (fun m v lp => (msrWrite_writesOnly m v lp).mcuOptCtrl) hi
  · exact hc.field_eq .tsxCtrl (·.tsxCtrl) (fun m v lp => (msrWrite_writesOnly m v lp).tsxCtrl) hi
  · exact hc.field_eq .tsxForceAbort (·.tsxForceAbort)
      (fun m v lp => (msrWrite_writesOnly m v lp).tsxForceAbort) hi
  · exact hc.field_eq .uarchMiscCtl (·.uarchMiscCtl)
      (fun m v lp => (msrWrite_writesOnly m v lp).uarchMiscCtl) hi
  · exact hc.field_eq .apicBase (·.apicExtd) (fun m v lp => (msrWrite_writesOnly m v lp).apicExtd) hi
  · exact hc.field_eq .apicBase (·.xapicDisabled)
      (fun m v lp => (msrWrite_writesOnly m v lp).xapicDisabled) hi
  · obtain ⟨hebx, hecx, hrest⟩ := hc.registers_eq hcpuid fun r =>
      ⟨own rfl (hrandom r).1 (by simp) (by simp) (by simp),
        own rfl (hrandom r).2 (by simp) (by simp) (by simp)⟩
    refine ⟨hebx, hecx, fun hrdmsr => ?_⟩
    obtain ⟨hedx, heax⟩ := hrest hrdmsr
    exact ⟨hedx, fun hxbegin => heax fun rel =>
      own rfl (hxbegin rel) (by simp) (by simp) (by simp)⟩
  · exact hc.inRtm_eq fun rel => own rfl (hxbegin rel) (by simp) (by simp) (by simp)
  · exact hc.events_eq (fun op => own rfl (hverw op) (by simp) (by simp) (by simp))
      (fun rel => own rfl (hxbegin rel) (by simp) (by simp) (by simp)) hi

/-! ### Where `ip` goes -/

theorem Completion.ip_eq {s t : State} {i : Instr} (h : Completion s i t)
    (hxbegin : ∀ rel, i ≠ .xbegin rel) (hret : i ≠ .ret) (hretImm : ∀ imm, i ≠ .retImm16 imm) :
    t.cur.ip = s.cur.ip + (encodeBase i).length := by
  cases h with
  | xbegin rel => exact absurd rfl (hxbegin rel)
  | ret i hi =>
    obtain rfl | ⟨imm, rfl⟩ := hi
    · exact absurd rfl hret
    · exact absurd rfl (hretImm imm)
  | cpuid | rdmsr => rfl
  | wrmsr m => simp [msrWrite_frame, encodeBase]
  | wrmsrClamped v => rfl
  | verw op =>
    have hlen : (encodeBase (.verw op)).length = verwLength op := by
      simp only [encodeBase, verwLength, List.length_append, List.length_cons, List.length_nil]
    rw [hlen]
    simp only [State.onCur_cur, LogicalProcessor.advance_ip, verwEffect]
    split <;> rfl
  | random i seed r hi =>
    have hlen : (encodeBase i).length = 3 := by
      obtain rfl | rfl := hi <;> rfl
    rw [hlen]
    simp only [State.onCur_cur, State.drawn_cur]
    rw [putReg_frame]
    rfl
  | monitor | umonitor => simp [monitorsFlushed_cur, encodeBase]
  | umwait => rfl

end Sys2Proof.Machine
end

section
/-! When RDMSR and WRMSR fault, what a fault carries, and which index they refuse (R192 to R200, R391,
R392). -/

namespace Sys2Proof.Machine

/-! ### The checks of the two accesses -/

/-- RDMSR stops at privilege, existence or direction (R192, R193, R195). -/
def rdmsrBlocked (m : Msr) (lp : LogicalProcessor) : Prop :=
  lp.cpl ≠ 0 ∨ msrExists m lp.cfg = false ∨ msrClass m = .writeOnly

/-- WRMSR stops at privilege, existence, direction or a reserved position (R192, R193, R195, R197). -/
def wrmsrBlocked (m : Msr) (lp : LogicalProcessor) : Prop :=
  lp.cpl ≠ 0 ∨ msrExists m lp.cfg = false ∨ msrClass m = .readOnly ∨
    edxEax lp &&& msrReserved m lp.cfg ≠ 0

theorem rdmsrOf_of_blocked {m : Msr} {s : State} (h : rdmsrBlocked m s.cur) :
    rdmsrOf m s = raiseGP s := by
  unfold rdmsrOf
  split_ifs with hcpl habsent hclass
  · rfl
  · rfl
  · rfl
  · exact absurd h (by simp [rdmsrBlocked, hcpl, habsent, hclass])

theorem rdmsrOf_of_not_blocked {m : Msr} {s : State} (h : ¬rdmsrBlocked m s.cur) :
    rdmsrOf m s = complete s fun lp => (putEdxEax (msrRead m lp) lp).advance 2 := by
  simp only [rdmsrBlocked, not_or] at h
  obtain ⟨hcpl, habsent, hclass⟩ := h
  rw [rdmsrOf, if_neg hcpl, if_neg habsent, if_neg hclass]

theorem wrmsrOf_of_blocked {m : Msr} {s : State} (h : wrmsrBlocked m s.cur) :
    wrmsrOf m s = raiseGP s := by
  unfold wrmsrOf
  dsimp only
  split
  next => rfl
  next hcpl =>
    split
    next => rfl
    next habsent =>
      split
      next => rfl
      next hclass =>
        have hreserved : edxEax s.cur &&& msrReserved m s.cur.cfg ≠ 0 := by
          simpa [wrmsrBlocked, hcpl, habsent, hclass] using h
        rw [if_pos hreserved]

/-- Behind the four checks come the refusal of R359, the legality of R199 and its policy. -/
theorem wrmsrOf_of_not_blocked {m : Msr} {s : State} (h : ¬wrmsrBlocked m s.cur) :
    wrmsrOf m s =
      if msrOutside m (edxEax s.cur) s.cur then refuse .apicBaseOtherFields
      else if msrLegal m (edxEax s.cur) s.cur then
        complete s fun lp => (msrWrite m (edxEax s.cur) lp).advance 2
      else if msrClamps m s.cur.cfg then
        complete s fun lp => (msrWrite m (msrClamp m (edxEax s.cur) lp) lp).advance 2
      else raiseGP s := by
  simp only [wrmsrBlocked, not_or] at h
  obtain ⟨hcpl, habsent, hclass, hreserved⟩ := h
  rw [wrmsrOf, if_neg hcpl, if_neg habsent, if_neg hclass, if_neg hreserved]

/-! ### Faults -/

@[simp] theorem faults_raiseGP (s : State) : faults (raiseGP s) = true := rfl
@[simp] theorem faults_refuse (r : Refusal) : faults (refuse r) = false := rfl
@[simp] theorem faults_complete (s : State) (f : LogicalProcessor → LogicalProcessor) :
    faults (complete s f) = false := rfl

theorem faults_rdmsrOf_iff {m : Msr} {s : State} :
    faults (rdmsrOf m s) = true ↔ rdmsrBlocked m s.cur := by
  by_cases h : rdmsrBlocked m s.cur
  · simp [rdmsrOf_of_blocked h, h]
  · simp [rdmsrOf_of_not_blocked h, h]

theorem faults_wrmsrOf_iff {m : Msr} {s : State} :
    faults (wrmsrOf m s) = true ↔ wrmsrBlocked m s.cur ∨
      (msrOutside m (edxEax s.cur) s.cur = false ∧ msrLegal m (edxEax s.cur) s.cur = false ∧
        msrClamps m s.cur.cfg = false) := by
  by_cases h : wrmsrBlocked m s.cur
  · simp [wrmsrOf_of_blocked h, h]
  · rw [wrmsrOf_of_not_blocked h]
    split_ifs <;> simp_all

theorem faults_accessOutside_iff {s : State} :
    faults (accessOutside s) = true ↔ s.cur.cpl ≠ 0 := by
  unfold accessOutside
  split_ifs with h <;> simp [h]

/-- A fault carries error code 0 and the state as it was. -/
def FaultsUnchanged (s : State) (r : Result) : Prop := ∀ f, r = .fault f → f = .gp 0 s

theorem faultsUnchanged_raiseGP (s : State) : FaultsUnchanged s (raiseGP s) := by
  intro f h
  cases h
  rfl

theorem faultsUnchanged_complete (s u : State) (f : LogicalProcessor → LogicalProcessor) :
    FaultsUnchanged s (complete u f) := by
  intro f h
  cases h

theorem faultsUnchanged_refuse (s : State) (r : Refusal) : FaultsUnchanged s (refuse r) := by
  intro f h
  cases h

theorem faultsUnchanged_rdmsrOf (m : Msr) (s : State) : FaultsUnchanged s (rdmsrOf m s) := by
  by_cases h : rdmsrBlocked m s.cur
  · rw [rdmsrOf_of_blocked h]
    exact faultsUnchanged_raiseGP s
  · rw [rdmsrOf_of_not_blocked h]
    exact faultsUnchanged_complete s s _

theorem faultsUnchanged_wrmsrOf (m : Msr) (s : State) : FaultsUnchanged s (wrmsrOf m s) := by
  by_cases h : wrmsrBlocked m s.cur
  · rw [wrmsrOf_of_blocked h]
    exact faultsUnchanged_raiseGP s
  · rw [wrmsrOf_of_not_blocked h]
    split_ifs
    · exact faultsUnchanged_refuse s _
    · exact faultsUnchanged_complete s s _
    · exact faultsUnchanged_complete s s _
    · exact faultsUnchanged_raiseGP s

theorem faultsUnchanged_accessOutside (s : State) : FaultsUnchanged s (accessOutside s) := by
  unfold accessOutside
  split
  · exact faultsUnchanged_raiseGP s
  · exact faultsUnchanged_refuse s _

theorem faultsUnchanged_execRdmsr (s : State) : FaultsUnchanged s (exec .rdmsr s) := by
  obtain ⟨m, hecx⟩ | hnone := msrIndex_or_outside s.cur.ecx
  · rw [exec_rdmsr_of_index hecx]
    exact faultsUnchanged_rdmsrOf m s
  · rw [exec_rdmsr_of_outside hnone]
    exact faultsUnchanged_accessOutside s

theorem faultsUnchanged_execWrmsr (s : State) : FaultsUnchanged s (exec .wrmsr s) := by
  obtain ⟨m, hecx⟩ | hnone := msrIndex_or_outside s.cur.ecx
  · rw [exec_wrmsr_of_index hecx]
    exact faultsUnchanged_wrmsrOf m s
  · rw [exec_wrmsr_of_outside hnone]
    exact faultsUnchanged_accessOutside s

/-- Only RDMSR and WRMSR fault: every other instruction completes or is refused (R391). -/
theorem not_faults_exec_base {i : Instr} (s : State) (hrow : i.base = i) (hrdmsr : i ≠ .rdmsr)
    (hwrmsr : i ≠ .wrmsr) : faults (exec i s) = false := by
  cases i with
  | rdmsr => exact absurd rfl hrdmsr
  | wrmsr => exact absurd rfl hwrmsr
  | xbegin rel =>
    change faults (execXbegin rel s) = false
    unfold execXbegin
    split <;> rfl
  | cpuid | verw | rdrand | rdseed | monitor | umonitor | umwait | ret | retImm16 => rfl
  | _ => exact absurd hrow (by simp [Instr.base])

theorem faults_exec_imp {i : Instr} {s : State} (h : faults (exec i s) = true) :
    rowSelects i s.cur = true ∧ (i.base = .rdmsr ∨ i.base = .wrmsr) := by
  cases hselects : rowSelects i s.cur with
  | false =>
    rw [exec_of_not_rowSelects hselects] at h
    exact absurd h Bool.false_ne_true
  | true =>
    rw [exec_of_rowSelects hselects] at h
    by_contra hnot
    simp only [true_and, not_or] at hnot
    rw [not_faults_exec_base s i.base_base hnot.1 hnot.2] at h
    exact absurd h Bool.false_ne_true

theorem faultsUnchanged_exec (i : Instr) (s : State) : FaultsUnchanged s (exec i s) := by
  intro f hf
  obtain ⟨hselects, hbase⟩ := faults_exec_imp (i := i) (s := s) (by rw [hf]; rfl)
  rw [exec_of_rowSelects hselects] at hf
  obtain hbase | hbase := hbase <;> rw [hbase] at hf
  · exact faultsUnchanged_execRdmsr s f hf
  · exact faultsUnchanged_execWrmsr s f hf

/-- Settles O11: `ip` by the ways of completing; every fault is `raiseGP` of the state. -/
theorem instructionPointerRule : Obligations.InstructionPointerRule := by
  refine ⟨fun i s t hxbegin hret hretImm h => ?_, fun i s f h => faultsUnchanged_exec i s f h⟩
  refine (completion_of_exec h).ip_eq (fun rel hbase => hxbegin rel ?_) (fun hbase => hret ?_)
    fun imm hbase => hretImm imm ?_
  all_goals exact eq_of_base hbase (by simp) (by simp) (by simp)

/-! ### Privilege, existence, direction -/

theorem exec_eq_raiseGP_of_cpl {i : Instr} {s : State} (hbase : i.base = .rdmsr ∨ i.base = .wrmsr)
    (hselects : rowSelects i s.cur = true) (hcpl : s.cur.cpl ≠ 0) : exec i s = raiseGP s := by
  have houtside : accessOutside s = raiseGP s := if_pos hcpl
  rw [exec_of_rowSelects hselects]
  obtain hbase | hbase := hbase <;> rw [hbase] <;>
    obtain ⟨m, hecx⟩ | hnone := msrIndex_or_outside s.cur.ecx
  · rw [exec_rdmsr_of_index hecx, rdmsrOf_of_blocked (.inl hcpl)]
  · rw [exec_rdmsr_of_outside hnone, houtside]
  · rw [exec_wrmsr_of_index hecx, wrmsrOf_of_blocked (.inl hcpl)]
  · rw [exec_wrmsr_of_outside hnone, houtside]

/-- Settles O18: the first check of both accesses is the privilege, inside the spec's indices and
outside. -/
theorem privilegeIsCheckedFirst : Obligations.PrivilegeIsCheckedFirst :=
  fun _ _ hbase hselects hcpl => exec_eq_raiseGP_of_cpl hbase hselects hcpl

/-- RDMSR and its row for the MSR in ECX are the same access. -/
theorem exec_rdmsr_or_row {m : Msr} {s : State} {i : Instr} (hi : i = .rdmsr ∨ i = rdmsrRow m)
    (hecx : s.cur.ecx = msrIndex m) : exec i s = rdmsrOf m s := by
  obtain rfl | rfl := hi
  · exact exec_rdmsr_of_index hecx
  · rw [exec_rdmsrRow, rowSelects_rdmsrRow.mpr hecx, whenSelected_true]

/-- WRMSR and its row for the MSR in ECX are the same access. -/
theorem exec_wrmsr_or_row {m : Msr} {s : State} {i : Instr} (hi : i = .wrmsr ∨ i = wrmsrRow m)
    (hecx : s.cur.ecx = msrIndex m) : exec i s = wrmsrOf m s := by
  obtain rfl | rfl := hi
  · exact exec_wrmsr_of_index hecx
  · rw [exec_wrmsrRow, rowSelects_wrmsrRow.mpr hecx, whenSelected_true]

/-- Settles O19: existence is a check of both accesses. -/
theorem absentMsrFaults : Obligations.AbsentMsrFaults := by
  intro m s i hi hecx habsent
  have hread : rdmsrOf m s = raiseGP s := rdmsrOf_of_blocked (.inr (.inl habsent))
  have hwrite : wrmsrOf m s = raiseGP s := wrmsrOf_of_blocked (.inr (.inl habsent))
  obtain hi | hi | hi | hi := hi
  · exact (exec_rdmsr_or_row (.inl hi) hecx).trans hread
  · exact (exec_wrmsr_or_row (.inl hi) hecx).trans hwrite
  · exact (exec_rdmsr_or_row (.inr hi) hecx).trans hread
  · exact (exec_wrmsr_or_row (.inr hi) hecx).trans hwrite

theorem exec_rdmsr_of_writeOnly {m : Msr} {s : State} {i : Instr} (hi : i = .rdmsr ∨ i = rdmsrRow m)
    (hecx : s.cur.ecx = msrIndex m) (hclass : msrClass m = .writeOnly) :
    exec i s = .fault (.gp 0 s) :=
  (exec_rdmsr_or_row hi hecx).trans (rdmsrOf_of_blocked (.inr (.inr hclass)))

theorem exec_wrmsr_of_readOnly {m : Msr} {s : State} {i : Instr} (hi : i = .wrmsr ∨ i = wrmsrRow m)
    (hecx : s.cur.ecx = msrIndex m) (hclass : msrClass m = .readOnly) :
    exec i s = .fault (.gp 0 s) :=
  (exec_wrmsr_or_row hi hecx).trans (wrmsrOf_of_blocked (.inr (.inr (.inl hclass))))

/-- Settles O21: the direction is a check of both accesses. -/
theorem wrongDirectionAlwaysFaults : Obligations.WrongDirectionAlwaysFaults :=
  ⟨fun _ _ hi hecx => exec_rdmsr_of_writeOnly (m := .predCmd) hi hecx rfl,
    fun _ _ hi hecx => exec_rdmsr_of_writeOnly (m := .flushCmd) hi hecx rfl,
    fun _ _ hi hecx => exec_wrmsr_of_readOnly (m := .archCapabilities) hi hecx rfl,
    fun _ _ hi hecx => exec_wrmsr_of_readOnly (m := .xapicDisableStatus) hi hecx rfl⟩

/-! ### Indices outside the spec -/

theorem exec_eq_accessOutside {s : State} {i : Instr}
    (hi : i ∈ [Instr.rdmsr, .wrmsr, .rdmsrOutside, .wrmsrOutside])
    (hnone : msrOfIndex s.cur.ecx = none) : exec i s = accessOutside s := by
  have hselects : rowSelects .rdmsrOutside s.cur = true :=
    decide_eq_true ((msrOfIndex_eq_none_iff _).mp hnone)
  simp only [List.mem_cons, List.not_mem_nil, or_false] at hi
  obtain rfl | rfl | rfl | rfl := hi
  · exact exec_rdmsr_of_outside hnone
  · exact exec_wrmsr_of_outside hnone
  · exact (exec_of_rowSelects hselects).trans (exec_rdmsr_of_outside hnone)
  · exact (exec_of_rowSelects (i := .wrmsrOutside) hselects).trans (exec_wrmsr_of_outside hnone)

theorem msrIndex_named_only {m : Msr} :
    msrIndex m ≠ 0x79 ∧ msrIndex m ≠ 0x6E0 ∧
      ¬(0x802 ≤ (msrIndex m).toNat ∧ (msrIndex m).toNat ≤ 0x83F) := by
  cases m <;> decide

/-- Settles O20: an index that names no MSR is refused at CPL 0; the named-only ones name none. -/
theorem outsideIndexIsRefused : Obligations.OutsideIndexIsRefused := by
  refine ⟨fun s i hi hcpl hecx => ?_, fun s hcpl hecx => ?_, fun idx hidx => ?_⟩
  · rw [exec_eq_accessOutside hi ((msrOfIndex_eq_none_iff _).mpr hecx), accessOutside_of_cpl0 hcpl]
  · exact (mcheckCompletionSetsTheLock.2 s hcpl hecx).2
  · obtain ⟨m, rfl⟩ | hnone := msrIndex_or_outside idx
    · obtain ⟨h79, h6e0, h802⟩ := msrIndex_named_only (m := m)
      exact absurd hidx (by simp only [h79, h6e0, h802, or_self, not_false_eq_true])
    · exact hnone

/-! ### The index map and the enumeration of the MSRs (R54) -/

theorem archCapBit_iff {c : Cfg} {n : Nat} :
    archCapBit c n = true ↔ c.c70Edx.getLsbD 29 = true ∧ c.archCap.getLsbD n = true := by
  rw [archCapBit, c70EdxBit, Bool.and_eq_true]

theorem c72EdxBit_iff {c : Cfg} {n : Nat} :
    c72EdxBit c n = true ↔ 2 ≤ c.maxSubleaf7 ∧ c.c72Edx.getLsbD n = true := by
  rw [c72EdxBit, Bool.and_eq_true, decide_eq_true_iff]

theorem msrExists_specCtrl_iff (c : Cfg) : msrExists .specCtrl c = true ↔
    c.c70Edx.getLsbD 26 = true ∨ c.c70Edx.getLsbD 27 = true ∨ c.c70Edx.getLsbD 31 = true ∨
      (2 ≤ c.maxSubleaf7 ∧ ∃ n ≤ 4, c.c72Edx.getLsbD n = true) := by
  have hsub : (2 ≤ c.maxSubleaf7 ∧ ∃ n ≤ 4, c.c72Edx.getLsbD n = true) ↔
      ∃ n ≤ 4, c72EdxBit c n = true := by
    simp only [c72EdxBit_iff]
    exact ⟨fun ⟨hmax, n, hn, hbit⟩ => ⟨n, hn, hmax, hbit⟩,
      fun ⟨n, hn, hmax, hbit⟩ => ⟨hmax, n, hn, hbit⟩⟩
  have hlist : (∃ n ≤ 4, c72EdxBit c n = true) ↔ c72EdxBit c 0 = true ∨ c72EdxBit c 1 = true ∨
      c72EdxBit c 2 = true ∨ c72EdxBit c 3 = true ∨ c72EdxBit c 4 = true := by
    simp only [← Nat.lt_succ_iff, Nat.exists_lt_succ_right]
    simp [or_assoc]
  rw [hsub, hlist]
  simp only [msrExists, c70EdxBit, Bool.or_eq_true, or_assoc]

theorem msrExists_mcuOptCtrl_iff (c : Cfg) : msrExists .mcuOptCtrl c = true ↔
    c.c70Edx.getLsbD 9 = true ∨ c.mcuRtmBits = true ∨
      (c.c70Edx.getLsbD 29 = true ∧ ∃ n ∈ [18, 25, 29, 30], c.archCap.getLsbD n = true) := by
  simp only [msrExists, c70EdxBit, Bool.or_eq_true, archCapBit_iff, List.mem_cons, List.not_mem_nil,
    or_false, exists_eq_or_imp, exists_eq_left]
  tauto

theorem msrClass_eq_writeOnly_iff {m : Msr} : msrClass m = .writeOnly ↔ m = .predCmd ∨ m = .flushCmd := by
  cases m <;> simp [msrClass]

theorem msrClass_eq_readOnly_iff {m : Msr} :
    msrClass m = .readOnly ↔ m = .archCapabilities ∨ m = .xapicDisableStatus := by
  cases m <;> simp [msrClass]

/-- Settles O17: index and class MSR by MSR, existence bit by bit. -/
theorem msrIndexMap : Obligations.MsrIndexMap := by
  refine ⟨fun idx m => ⟨msrIndex_of_msrOfIndex, ?_⟩, rfl, fun m => msrClass_eq_writeOnly_iff,
    fun m => msrClass_eq_readOnly_iff, fun c => ?_⟩
  · rintro rfl
    exact msrOfIndex_msrIndex m
  · exact ⟨msrExists_specCtrl_iff c, .rfl, .rfl, .rfl, .rfl, archCapBit_iff, archCapBit_iff,
      archCapBit_iff, msrExists_mcuOptCtrl_iff c, rfl⟩

/-! ### Reserved positions, and the six causes -/

/-- Settles O22: the mask is the table, so a 1 outside the table is caught by the check of R197. -/
theorem reservedBitsFault : Obligations.ReservedBitsFault := by
  refine ⟨fun m s n i hi hecx hset hreserved => ?_, fun m c n hn => getLsbD_msrReserved m c n hn⟩
  rw [exec_wrmsr_or_row hi hecx]
  exact wrmsrOf_of_blocked (.inr (.inr (.inr (and_msrReserved_ne_zero_iff.mpr ⟨n, hset, hreserved⟩))))

theorem msrIndex_injective {m m' : Msr} (h : msrIndex m = msrIndex m') : m = m' := by
  have h' := congrArg msrOfIndex h
  rw [msrOfIndex_msrIndex, msrOfIndex_msrIndex] at h'
  exact Option.some.inj h'

/-- A condition on the MSR in ECX. -/
theorem exists_msrIndex_iff {s : State} {m : Msr} {P : Msr → Prop} (hecx : s.cur.ecx = msrIndex m) :
    (∃ m', s.cur.ecx = msrIndex m' ∧ P m') ↔ P m := by
  constructor
  · rintro ⟨m', hm', hP⟩
    rwa [msrIndex_injective (hecx.symm.trans hm')]
  · exact fun hP => ⟨m, hecx, hP⟩

theorem ne_msrIndex_of_outside {s : State} (hnone : msrOfIndex s.cur.ecx = none) (m : Msr) :
    s.cur.ecx ≠ msrIndex m := by
  intro hecx
  rw [hecx, msrOfIndex_msrIndex] at hnone
  cases hnone

theorem faults_rdmsr_iff (s : State) : faults (exec .rdmsr s) = true ↔
    s.cur.cpl ≠ 0 ∨ ∃ m, s.cur.ecx = msrIndex m ∧
      (msrExists m s.cur.cfg = false ∨ m = .predCmd ∨ m = .flushCmd) := by
  obtain ⟨m, hecx⟩ | hnone := msrIndex_or_outside s.cur.ecx
  · rw [exec_rdmsr_of_index hecx, exists_msrIndex_iff hecx, faults_rdmsrOf_iff, rdmsrBlocked,
      msrClass_eq_writeOnly_iff]
  · rw [exec_rdmsr_of_outside hnone, faults_accessOutside_iff]
    simp [ne_msrIndex_of_outside hnone]

/-- A write of IA32_APIC_BASE stays inside the spec where it keeps every bit but EXTD (R359). -/
theorem msrOutside_apicBase_eq_false_iff {v : Quad} {lp : LogicalProcessor} :
    msrOutside .apicBase v lp = false ↔ ∀ n, n ≠ 10 → v.getLsbD n = lp.apicOther.getLsbD n := by
  simp only [msrOutside, decide_eq_false_iff_not, not_not]
  constructor
  · intro h n hn
    have hbit := congrArg (fun u : Quad => u.getLsbD n) h
    simpa only [getLsbD_setBit_other _ _ _ _ hn] using hbit
  · intro h
    apply BitVec.eq_of_getLsbD_eq
    intro n hlt
    rw [getLsbD_setBit_of_lt _ _ _ (by omega), getLsbD_setBit_of_lt _ _ _ (by omega)]
    split
    next => rfl
    next hn => exact h n hn

theorem tfaIllegalBit1_iff {v : Quad} {lp : LogicalProcessor} : tfaIllegalBit1 v lp = true ↔
    v.getLsbD 1 = true ∧ lp.tsxForceAbort.getLsbD 1 = false ∧
      lp.cfg.c70Edx.getLsbD 11 = false ∧ lp.tsxForceAbort.getLsbD 2 = false := by
  simp only [tfaIllegalBit1, tfaEdx11, c70EdxBit]
  grind

theorem tfaIllegalBit2_iff {v : Quad} {lp : LogicalProcessor} : tfaIllegalBit2 v lp = true ↔
    v.getLsbD 2 = true ∧ lp.tsxForceAbort.getLsbD 2 = false ∧
      lp.cfg.c70Edx.getLsbD 11 = !lp.cfg.sdvSetRequiresEdx11 := by
  simp only [tfaIllegalBit2, tfaEdx11, c70EdxBit]
  grind

theorem msrClamps_tsxForceAbort_eq_false_iff {c : Cfg} :
    msrClamps .tsxForceAbort c = false ↔ c.illegalSetPolicy = .gp := by
  rw [msrClamps, decide_eq_false_iff_not]
  cases c.illegalSetPolicy <;> simp

/-- The write is inside the spec, illegal and not clamped for one of two MSRs only (R199, R333, R360). -/
theorem illegal_write_iff {m : Msr} {v : Quad} {lp : LogicalProcessor} :
    (msrOutside m v lp = false ∧ msrLegal m v lp = false ∧ msrClamps m lp.cfg = false) ↔
      (m = .tsxForceAbort ∧ lp.cfg.illegalSetPolicy = .gp ∧
        (tfaIllegalBit1 v lp = true ∨ tfaIllegalBit2 v lp = true)) ∨
      (m = .apicBase ∧ msrExists .xapicDisableStatus lp.cfg = true ∧ lp.xapicDisabled = true ∧
        v.getLsbD 10 = false ∧ ∀ n, n ≠ 10 → v.getLsbD n = lp.apicOther.getLsbD n) := by
  cases m with
  | tsxForceAbort =>
    rw [msrClamps_tsxForceAbort_eq_false_iff]
    simp only [msrOutside, msrLegal]
    grind
  | apicBase =>
    rw [msrOutside_apicBase_eq_false_iff]
    simp only [msrLegal, apicClearsLockedExtd, legacyXapicDisabled, msrClamps]
    grind
  | _ => simp [msrLegal]

theorem faults_wrmsr_iff (s : State) : faults (exec .wrmsr s) = true ↔
    s.cur.cpl ≠ 0 ∨ ∃ m, s.cur.ecx = msrIndex m ∧
      (msrExists m s.cur.cfg = false ∨ m = .archCapabilities ∨ m = .xapicDisableStatus ∨
        (∃ n, (edxEax s.cur).getLsbD n = true ∧ bitMayBeSet m s.cur.cfg n = false) ∨
        (m = .tsxForceAbort ∧ s.cur.cfg.illegalSetPolicy = .gp ∧
          (tfaIllegalBit1 (edxEax s.cur) s.cur = true ∨ tfaIllegalBit2 (edxEax s.cur) s.cur = true)) ∨
        (m = .apicBase ∧ msrExists .xapicDisableStatus s.cur.cfg = true ∧
          s.cur.xapicDisabled = true ∧ (edxEax s.cur).getLsbD 10 = false ∧
          ∀ n, n ≠ 10 → (edxEax s.cur).getLsbD n = s.cur.apicOther.getLsbD n)) := by
  obtain ⟨m, hecx⟩ | hnone := msrIndex_or_outside s.cur.ecx
  · rw [exec_wrmsr_of_index hecx, exists_msrIndex_iff hecx, faults_wrmsrOf_iff, wrmsrBlocked,
      msrClass_eq_readOnly_iff, and_msrReserved_ne_zero_iff, illegal_write_iff]
    simp only [or_assoc]
  · rw [exec_wrmsr_of_outside hnone, faults_accessOutside_iff]
    simp [ne_msrIndex_of_outside hnone]

/-- Settles O23: the checks of the two accesses, read as a list of causes. -/
theorem faultCausesAreExactlySix : Obligations.FaultCausesAreExactlySix := by
  refine ⟨fun i s h => (faults_exec_imp h).2, faults_rdmsr_iff, fun s => ?_⟩
  simpa only [tfaIllegalBit1_iff, tfaIllegalBit2_iff] using faults_wrmsr_iff s

end Sys2Proof.Machine
end

section
/-! What a step that is no reset, no microcode load and no scheduling does to each logical processor: it
keeps the place, the invariant and the locks, and at most appends to the event history (R60, R204, R305,
R434). -/

namespace Sys2Proof.Machine

/-! ### The invariant of one logical processor, condition by condition -/

/-- `lpOk` with a name for each condition. -/
structure Valid (lp : LogicalProcessor) : Prop where
  cfg : cfgWf lp.cfg = true
  specCtrl : ∀ n, lp.specCtrl.getLsbD n = true → specCtrlBitEnumerated lp.cfg n = true
  rtmAllow : lp.mcuOptCtrl.getLsbD 2 = true → lp.mcuOptCtrl.getLsbD 1 = false
  gdsMitgDis : lp.mcuOptCtrl.getLsbD 5 = true → lp.mcuOptCtrl.getLsbD 4 = false
  mcuOptCtrl : ∀ n, lp.mcuOptCtrl.getLsbD n = true → mcuBitEnumerated lp.cfg n = true
  tsxCtrl : lp.tsxCtrl &&& ~~~3 = 0
  uarchMiscCtl : lp.uarchMiscCtl &&& ~~~1 = 0
  apicExtd : legacyXapicDisabled lp = true → lp.apicExtd = true
  gdsLockHeld : lp.gdsLockHeld = true → archCapBit lp.cfg 25 = false

theorem mcuOk_iff {c : Cfg} {v : Quad} : mcuOk c v = true ↔
    (v.getLsbD 2 = true → v.getLsbD 1 = false) ∧ (v.getLsbD 5 = true → v.getLsbD 4 = false) ∧
      ∀ n, v.getLsbD n = true → mcuBitEnumerated c n = true := by
  have hmask : v &&& ~~~mcuImplemented c = 0 ↔
      ∀ n, v.getLsbD n = true → mcuBitEnumerated c n = true :=
    (and_not_eq_zero_iff v _).trans (by simp only [getLsbD_mcuImplemented])
  rw [mcuOk, Bool.and_eq_true, Bool.and_eq_true, decide_eq_true_iff, hmask, and_assoc]
  simp only [Bool.not_eq_true', Bool.and_eq_false_imp]

theorem lpOk_iff {lp : LogicalProcessor} : lpOk lp = true ↔ Valid lp := by
  have hspec : lp.specCtrl &&& ~~~specCtrlImplemented lp.cfg = 0 ↔
      ∀ n, lp.specCtrl.getLsbD n = true → specCtrlBitEnumerated lp.cfg n = true :=
    (and_not_eq_zero_iff lp.specCtrl _).trans (by simp only [getLsbD_specCtrlImplemented])
  have hapic : (!legacyXapicDisabled lp || lp.apicExtd) = true ↔
      (legacyXapicDisabled lp = true → lp.apicExtd = true) := by
    rw [Bool.or_eq_true, Bool.not_eq_true', ← Bool.not_eq_true, imp_iff_not_or]
  have hheld : (!(lp.gdsLockHeld && archCapBit lp.cfg 25)) = true ↔
      (lp.gdsLockHeld = true → archCapBit lp.cfg 25 = false) := by
    rw [Bool.not_eq_true', Bool.and_eq_false_imp]
  rw [lpOk]
  simp only [Bool.and_eq_true, decide_eq_true_iff, hspec, mcuOk_iff, hapic, hheld]
  constructor
  · rintro ⟨⟨⟨⟨⟨⟨hcfg, hspecCtrl⟩, hrtm, hgds, hmcu⟩, htsx⟩, huarch⟩, hapic⟩, hheld⟩
    exact ⟨hcfg, hspecCtrl, hrtm, hgds, hmcu, htsx, huarch, hapic, hheld⟩
  · rintro ⟨hcfg, hspecCtrl, hrtm, hgds, hmcu, htsx, huarch, hapic, hheld⟩
    exact ⟨⟨⟨⟨⟨⟨hcfg, hspecCtrl⟩, hrtm, hgds, hmcu⟩, htsx⟩, huarch⟩, hapic⟩, hheld⟩

/-! ### Changes that keep what the invariants speak of -/

/-- What every step but a reset, a load and a scheduling does to each logical processor. -/
structure LocalChange (lp lp' : LogicalProcessor) : Prop where
  topology : topologyFields lp' = topologyFields lp
  valid : Valid lp → Valid lp'
  gdsLocked : gdsLocked lp = true → gdsLocked lp' = true
  rtmLocked : lp.mcuOptCtrl.getLsbD 2 = true → lp'.mcuOptCtrl.getLsbD 2 = true
  xapicDisabled : lp.xapicDisabled = true → lp'.xapicDisabled = true
  events : lp.events <+: lp'.events

/-- What the invariant of one logical processor and its locks are read off. -/
def invariantFields (lp : LogicalProcessor) : Cfg × Quad × Quad × Quad × Quad × Bool × Bool × Bool :=
  (lp.cfg, lp.specCtrl, lp.mcuOptCtrl, lp.tsxCtrl, lp.uarchMiscCtl, lp.xapicDisabled, lp.apicExtd,
    lp.gdsLockHeld)

/-- A change outside the stored MSRs and the place is local as soon as it only appends to the history. -/
theorem LocalChange.of_fields {lp lp' : LogicalProcessor}
    (htopology : topologyFields lp' = topologyFields lp)
    (hfields : invariantFields lp' = invariantFields lp) (hevents : lp.events <+: lp'.events) :
    LocalChange lp lp' := by
  simp only [invariantFields, Prod.mk.injEq] at hfields
  obtain ⟨hcfg, hspec, hmcu, htsx, huarch, hxapic, hextd, hheld⟩ := hfields
  have hok : lpOk lp' = lpOk lp := by
    simp only [lpOk, legacyXapicDisabled, hcfg, hspec, hmcu, htsx, huarch, hxapic, hextd, hheld]
  exact {
    topology := htopology
    valid := fun h => lpOk_iff.mp (hok ▸ lpOk_iff.mpr h)
    gdsLocked := fun h => by rwa [Machine.gdsLocked, hmcu, hheld]
    rtmLocked := fun h => by rwa [hmcu]
    xapicDisabled := fun h => by rwa [hxapic]
    events := hevents }

@[refl] theorem LocalChange.refl (lp : LogicalProcessor) : LocalChange lp lp :=
  .of_fields rfl rfl List.prefix_rfl

theorem LocalChange.trans {a b c : LogicalProcessor} (h : LocalChange a b) (h' : LocalChange b c) :
    LocalChange a c where
  topology := h'.topology.trans h.topology
  valid := h'.valid ∘ h.valid
  gdsLocked := h'.gdsLocked ∘ h.gdsLocked
  rtmLocked := h'.rtmLocked ∘ h.rtmLocked
  xapicDisabled := h'.xapicDisabled ∘ h.xapicDisabled
  events := h.events.trans h'.events

theorem LocalChange.id {lp lp' : LogicalProcessor} (h : LocalChange lp lp') : lp'.id = lp.id :=
  congrArg (fun p => p.2.2.1) h.topology

theorem localChange_note (e : Effect) (lp : LogicalProcessor) : LocalChange lp (lp.note e) :=
  .of_fields rfl rfl List.prefix_rfl

theorem localChange_advance (n : Nat) (lp : LogicalProcessor) : LocalChange lp (lp.advance n) :=
  .of_fields rfl rfl List.prefix_rfl

theorem localChange_rtmAbort (c : AbortCause) (v : Word) (k : Nat) (lp : LogicalProcessor) :
    LocalChange lp (lp.rtmAbort c v k) :=
  .of_fields rfl rfl (List.prefix_append _ _)

theorem localChange_takeDueAbort (lp : LogicalProcessor) : LocalChange lp lp.takeDueAbort := by
  unfold LogicalProcessor.takeDueAbort
  split
  · exact localChange_rtmAbort _ _ _ lp
  · exact .refl lp

/-! ### WRMSR -/

theorem writeLicensed_iff {m : Msr} {v : Quad} {lp : LogicalProcessor} :
    writeLicensed m v lp = true ↔ lp.cpl = 0 ∧ msrExists m lp.cfg = true ∧ msrClass m ≠ .readOnly ∧
      v &&& msrReserved m lp.cfg = 0 ∧ msrOutside m v lp = false ∧ msrLegal m v lp = true := by
  simp only [writeLicensed, Bool.and_eq_true, decide_eq_true_iff, Bool.not_eq_true', and_assoc]

/-- GDS_MITG_LOCK set, or kept, by a write (R300). -/
theorem gdsLockWritten_of_locked {v : Quad} {lp : LogicalProcessor}
    (h : lp.mcuOptCtrl.getLsbD 5 = true) : gdsLockWritten v lp = true := by
  rw [gdsLockWritten, h, Bool.true_or]

theorem mcuWritten_rtmLocked (v : Quad) (lp : LogicalProcessor) :
    (mcuWritten v lp).getLsbD 2 = lp.mcuOptCtrl.getLsbD 2 := by
  rw [getLsbD_mcuWritten]
  simp only [show ¬(2 = 1) by omega, if_true, if_false, ite_self]

theorem valid_mcuWritten (v : Quad) {lp : LogicalProcessor} (h : Valid lp) :
    Valid { lp with mcuOptCtrl := mcuWritten v lp } where
  cfg := h.cfg
  specCtrl := h.specCtrl
  rtmAllow := fun hlocked => by
    have hrtm := h.rtmAllow (mcuWritten_rtmLocked v lp ▸ hlocked)
    rw [mcuWritten_rtmLocked] at hlocked
    simp only [getLsbD_mcuWritten, hlocked, hrtm]
    simp
  gdsMitgDis := fun hlocked => by
    have hdis := h.gdsMitgDis
    simp only [getLsbD_mcuWritten, mcuBitEnumerated] at hlocked ⊢
    grind
  mcuOptCtrl := fun n hn => by
    have hold := h.mcuOptCtrl n
    simp only [getLsbD_mcuWritten] at hn
    grind
  tsxCtrl := h.tsxCtrl
  uarchMiscCtl := h.uarchMiscCtl
  apicExtd := h.apicExtd
  gdsLockHeld := h.gdsLockHeld

theorem valid_apicWritten {v : Quad} {lp : LogicalProcessor} (h : Valid lp)
    (hlegal : msrLegal .apicBase v lp = true) :
    Valid { lp with apicExtd := v.getLsbD 10, xapicDisabled := xapicLockWritten v lp } where
  cfg := h.cfg
  specCtrl := h.specCtrl
  rtmAllow := h.rtmAllow
  gdsMitgDis := h.gdsMitgDis
  mcuOptCtrl := h.mcuOptCtrl
  tsxCtrl := h.tsxCtrl
  uarchMiscCtl := h.uarchMiscCtl
  apicExtd := fun hlocked => by
    simp only [msrLegal, apicClearsLockedExtd, legacyXapicDisabled, xapicLockWritten] at hlegal hlocked ⊢
    grind
  gdsLockHeld := h.gdsLockHeld

/-- The invariant says nothing of IA32_TSX_FORCE_ABORT, whose three bits are all implemented. -/
theorem valid_msrWrite_tsxForceAbort (v : Quad) {lp : LogicalProcessor} (h : Valid lp) :
    Valid (msrWrite .tsxForceAbort v lp) := by
  simp only [msrWrite]
  exact { h with }

/-- A write that is licensed keeps the invariant (R197, R199, R204). -/
theorem valid_msrWrite {m : Msr} {v : Quad} {lp : LogicalProcessor} (h : Valid lp)
    (hlicensed : writeLicensed m v lp = true) : Valid (msrWrite m v lp) := by
  obtain ⟨-, -, -, hreserved, -, hlegal⟩ := writeLicensed_iff.mp hlicensed
  have hbits := and_msrReserved_eq_zero_iff.mp hreserved
  cases m with
  | specCtrl => exact { h with specCtrl := hbits }
  | tsxCtrl => exact { h with tsxCtrl := hreserved }
  | uarchMiscCtl => exact { h with uarchMiscCtl := hreserved }
  | mcuOptCtrl => exact valid_mcuWritten v h
  | apicBase => exact valid_apicWritten h hlegal
  | tsxForceAbort => exact valid_msrWrite_tsxForceAbort v h
  | predCmd | flushCmd =>
    simp only [msrWrite]
    split
    · exact { h with }
    · exact h
  | xapicDisableStatus | archCapabilities => exact h

theorem SameContext.topologyFields_eq {lp lp' : LogicalProcessor} (h : SameContext lp lp') :
    topologyFields lp' = topologyFields lp := by
  simp only [topologyFields, h.present, h.core, h.id, h.cfg]

theorem LocalChange.of_same {lp lp' : LogicalProcessor} (hcontext : SameContext lp lp')
    (hmsrs : SameMsrs lp lp') (hevents : lp.events <+: lp'.events) : LocalChange lp lp' := by
  refine .of_fields hcontext.topologyFields_eq ?_ hevents
  simp only [invariantFields, hcontext.cfg, hcontext.gdsLockHeld, hmsrs.specCtrl, hmsrs.mcuOptCtrl,
    hmsrs.tsxCtrl, hmsrs.uarchMiscCtl, hmsrs.xapicDisabled, hmsrs.apicExtd]

/-- Each write keeps a held lock, whatever the value (R299, R361). -/
theorem msrWrite_locks (m : Msr) (v : Quad) (lp : LogicalProcessor) :
    (gdsLocked lp = true → gdsLocked (msrWrite m v lp) = true) ∧
    ((msrWrite m v lp).mcuOptCtrl.getLsbD 2 = lp.mcuOptCtrl.getLsbD 2) ∧
    (lp.xapicDisabled = true → (msrWrite m v lp).xapicDisabled = true) := by
  cases m with
  | mcuOptCtrl =>
    refine ⟨fun h => ?_, mcuWritten_rtmLocked v lp, id⟩
    simp only [gdsLocked, msrWrite, Bool.or_eq_true] at h ⊢
    refine h.imp_left fun hlock => ?_
    simp [getLsbD_mcuWritten, gdsLockWritten_of_locked hlock, hlock, -BitVec.getLsbD_eq_getElem]
  | apicBase =>
    refine ⟨id, rfl, fun h => ?_⟩
    simp only [msrWrite, xapicLockWritten, h, Bool.true_or]
  | predCmd | flushCmd =>
    simp only [msrWrite]
    split <;> exact ⟨id, rfl, id⟩
  | _ => exact ⟨id, rfl, id⟩

theorem localChange_msrWrite {m : Msr} {v : Quad} {lp : LogicalProcessor}
    (hvalid : Valid lp → Valid (msrWrite m v lp)) : LocalChange lp (msrWrite m v lp) := by
  obtain ⟨hgds, hrtm, hxapic⟩ := msrWrite_locks m v lp
  exact {
    topology := (sameContext_msrWrite m v lp).topologyFields_eq
    valid := hvalid
    gdsLocked := hgds
    rtmLocked := fun h => hrtm.trans h
    xapicDisabled := hxapic
    events := by
      obtain ⟨es, hes⟩ := msrWrite_events m v lp
      exact ⟨es, hes.symm⟩ }

/-! ### Every instruction -/

theorem Completion.events_prefix {s t : State} {i : Instr} (h : Completion s i t)
    (hi : i ≠ .wrmsr) : s.cur.events <+: t.cur.events := by
  by_cases hverw : ∃ op, i = .verw op
  · obtain ⟨op, rfl⟩ := hverw
    cases h with
    | verw =>
      simp only [State.onCur_cur, LogicalProcessor.advance_events, verwEffect]
      split
      · exact List.prefix_append _ _
      · exact List.prefix_rfl
    | random _ _ _ hr => simp at hr
    | ret _ hr => simp at hr
  · by_cases hxbegin : ∃ rel, i = .xbegin rel
    · obtain ⟨rel, rfl⟩ := hxbegin
      cases h with
      | xbegin => simp
      | random _ _ _ hr => simp at hr
      | ret _ hr => simp at hr
    · rw [h.events_eq (fun op hop => hverw ⟨op, hop⟩) (fun rel hrel => hxbegin ⟨rel, hrel⟩) (.inl hi)]

theorem Completion.localChange {s t : State} {i : Instr} (h : Completion s i t) :
    LocalChange s.cur t.cur := by
  by_cases hi : i = .wrmsr
  · subst hi
    generalize hj : Instr.wrmsr = j at h
    cases h with
    | wrmsr m hecx hlicensed =>
      exact (localChange_msrWrite fun hvalid => valid_msrWrite hvalid hlicensed).trans
        (localChange_advance 2 _)
    | wrmsrClamped v =>
      exact (localChange_msrWrite (valid_msrWrite_tsxForceAbort v)).trans (localChange_advance 2 _)
    | random _ _ _ hr => subst hj; simp at hr
    | ret _ hr => subst hj; simp at hr
    | _ => cases hj
  · exact .of_same h.sameContext (h.sameMsrs hi) (h.events_prefix hi)

/-- A relation that an instruction keeps on its own logical processor, and that a note keeps, holds of all
of them before and after. -/
theorem Completion.forall₂ {R : LogicalProcessor → LogicalProcessor → Prop} {s t : State} {i : Instr}
    (h : Completion s i t) (hcur : R s.cur t.cur) (hrefl : ∀ lp, R lp lp)
    (hnote : ∀ e lp, R lp (lp.note e)) : List.Forall₂ R s.threads t.threads := by
  refine .cons hcur (h.others.imp fun o o' ho => ?_)
  obtain rfl | ⟨-, rfl⟩ := ho
  · exact hrefl _
  · exact hnote _ o

/-! ### Every local event -/

theorem localChange_mcheck (lp : LogicalProcessor) : LocalChange lp lp.mcheck where
  topology := rfl
  valid h := { h with
    apicExtd := fun hlocked => by
      have hextd := h.apicExtd
      simp only [LogicalProcessor.mcheck, legacyXapicDisabled] at hlocked hextd ⊢
      grind }
  gdsLocked := id
  rtmLocked := id
  xapicDisabled h := by simp only [LogicalProcessor.mcheck, h, Bool.true_or]
  events := List.prefix_rfl

theorem localChange_overwriteAt (crossed : Bool) (lp : LogicalProcessor) :
    LocalChange lp (overwriteAt crossed lp) := by
  unfold overwriteAt
  split
  · exact .of_fields rfl rfl (List.prefix_append _ _)
  · exact .refl lp

theorem localChange_enter (lp : LogicalProcessor) : LocalChange lp lp.enter :=
  (localChange_overwriteAt _ lp).trans (.of_fields rfl rfl List.prefix_rfl)

theorem localChange_leave (lp : LogicalProcessor) : LocalChange lp lp.leave :=
  (localChange_overwriteAt _ lp).trans (.of_fields rfl rfl List.prefix_rfl)

theorem localChange_abortForSibling (draws n core : Nat) (lp : LogicalProcessor) :
    LocalChange lp (abortForSibling draws n core lp) := by
  unfold abortForSibling
  split
  · exact localChange_rtmAbort _ _ _ lp
  · exact .refl lp

theorem localChange_endRtm (lp : LogicalProcessor) : LocalChange lp lp.endRtm :=
  (localChange_takeDueAbort lp).trans (.of_fields rfl rfl List.prefix_rfl)

theorem localChange_begin (fallback : Nat) (lp : LogicalProcessor) :
    LocalChange lp (lp.takeDueAbort.begin fallback) :=
  (localChange_takeDueAbort lp).trans (.of_fields rfl rfl List.prefix_rfl)

theorem localChange_putRegisters (a b c d : Word) (ip : Nat) (lp : LogicalProcessor) :
    LocalChange lp (lp.putRegisters a b c d ip) :=
  (localChange_takeDueAbort lp).trans (.of_fields rfl rfl List.prefix_rfl)

/-- The platform's lock bit by bit (R295; entry 25). -/
theorem getLsbD_lockRtm (lp : LogicalProcessor) (n : Nat) :
    lp.lockRtm.mcuOptCtrl.getLsbD n =
      if lp.cfg.mcuRtmBits = true ∧ n = 2 then true
      else if lp.cfg.mcuRtmBits = true ∧ n = 1 then false
      else lp.mcuOptCtrl.getLsbD n := by
  simp only [LogicalProcessor.lockRtm]
  cases lp.cfg.mcuRtmBits with
  | false => simp
  | true =>
    rw [if_pos rfl, getLsbD_setBit_of_lt _ _ _ (by omega), getLsbD_setBit_of_lt _ _ _ (by omega)]
    simp only [true_and]

theorem localChange_lockRtm (lp : LogicalProcessor) : LocalChange lp lp.lockRtm where
  topology := rfl
  valid h := { h with
    rtmAllow := fun hlocked => by
      have hallow := h.rtmAllow
      rw [getLsbD_lockRtm] at hlocked ⊢
      grind
    gdsMitgDis := fun hlocked => by
      have hdis := h.gdsMitgDis
      rw [getLsbD_lockRtm] at hlocked ⊢
      grind
    mcuOptCtrl := fun n hn => by
      have hold := h.mcuOptCtrl n
      rw [getLsbD_lockRtm] at hn
      change mcuBitEnumerated lp.cfg n = true
      split_ifs at hn with h2 h1
      · rw [h2.2]
        exact h2.1
      · exact hold hn }
  gdsLocked h := by
    have h5 : lp.lockRtm.mcuOptCtrl.getLsbD 5 = lp.mcuOptCtrl.getLsbD 5 := by
      rw [getLsbD_lockRtm, if_neg (by simp), if_neg (by simp)]
    rw [Machine.gdsLocked, h5]
    exact h
  rtmLocked h := by
    rw [getLsbD_lockRtm]
    grind
  xapicDisabled := id
  events := List.prefix_rfl

theorem forall₂_onLp {R : LogicalProcessor → LogicalProcessor → Prop} (s : State) (n : Nat)
    {f : LogicalProcessor → LogicalProcessor} (hrefl : ∀ lp, R lp lp) (hf : ∀ lp, R lp (f lp)) :
    List.Forall₂ R s.threads (s.onLp n f).threads := by
  refine (s.forall₂_threads_onLp n f).imp fun lp lp' h => ?_
  rw [h, onNumber]
  split
  · exact hf lp
  · exact hrefl lp

theorem forall₂_applyToLp {R : LogicalProcessor → LogicalProcessor → Prop} {s t : State} {n : Nat}
    {f : LogicalProcessor → LogicalProcessor} (h : applyToLp n f s = .next t)
    (hrefl : ∀ lp, R lp lp) (hf : ∀ lp, R lp (f lp)) :
    List.Forall₂ R s.threads t.threads := by
  obtain ⟨-, rfl⟩ := applyToLp_next h
  exact forall₂_onLp s n hrefl hf

theorem code_applyToLp {s t : State} {n : Nat} {f : LogicalProcessor → LogicalProcessor}
    (h : applyToLp n f s = .next t) : t.code = s.code := by
  obtain ⟨-, rfl⟩ := applyToLp_next h
  rfl

end Sys2Proof.Machine
end

section
/-! Invariants of every step: the machine's invariant, the one-way locks, the event history (R22, R60,
R204, R305, R405, R420, R426, R434). -/

namespace Sys2Proof.Machine

/-! ### Distinct numbers -/

theorem ascending_iff {l : List LogicalProcessor} :
    ascending l = true ↔ l.Pairwise fun a b => a.id < b.id := by
  induction l with
  | nil => simp [ascending]
  | cons lp l ih => simp [ascending, ih]

theorem State.numbersOk_iff {s : State} : s.numbersOk = true ↔
    (s.others.Pairwise fun a b => a.id < b.id) ∧ ∀ t ∈ s.others, t.id ≠ s.cur.id := by
  simp only [State.numbersOk, Bool.and_eq_true, ascending_iff, List.all_eq_true, bne_iff_ne]

/-- The numbers alone decide. -/
theorem State.numbersOk_congr {s t : State}
    (h : t.threads.map (·.id) = s.threads.map (·.id)) : t.numbersOk = s.numbersOk := by
  simp only [State.threads, List.map_cons, List.cons.injEq] at h
  obtain ⟨hcur, hothers⟩ := h
  have key (u : State) : u.numbersOk = true ↔
      ((u.others.map (·.id)).Pairwise (· < ·)) ∧ ∀ k ∈ u.others.map (·.id), k ≠ u.cur.id := by
    rw [State.numbersOk_iff, List.pairwise_map, List.forall_mem_map]
  rw [Bool.eq_iff_iff, key, key, hothers, hcur]

theorem State.nodup_ids {s : State} (h : s.numbersOk = true) : (s.threads.map (·.id)).Nodup := by
  obtain ⟨hascending, hcur⟩ := State.numbersOk_iff.mp h
  rw [State.threads, List.map_cons, List.nodup_cons]
  constructor
  · rintro hmem
    obtain ⟨t, ht, hid⟩ := List.mem_map.mp hmem
    exact hcur t ht hid
  · exact (List.pairwise_map.mpr hascending).imp fun h => Nat.ne_of_lt h

/-- A number names at most one logical processor. -/
theorem State.eq_of_id_eq {s : State} (h : s.numbersOk = true) {a b : LogicalProcessor}
    (ha : a ∈ s.threads) (hb : b ∈ s.threads) (hid : a.id = b.id) : a = b :=
  List.inj_on_of_nodup_map (State.nodup_ids h) ha hb hid

/-! ### Scheduling -/

theorem insertLp_perm (lp : LogicalProcessor) (l : List LogicalProcessor) :
    (insertLp lp l).Perm (lp :: l) := by
  induction l with
  | nil => rfl
  | cons t ts ih =>
    unfold insertLp
    split
    · rfl
    · exact (ih.cons t).trans (.swap lp t ts)

theorem pairwise_insertLp {lp : LogicalProcessor} {l : List LogicalProcessor}
    (h : l.Pairwise fun a b => a.id < b.id) (hlp : ∀ t ∈ l, t.id ≠ lp.id) :
    (insertLp lp l).Pairwise fun a b => a.id < b.id := by
  induction l with
  | nil => exact List.pairwise_singleton _ _
  | cons t ts ih =>
    obtain ⟨ht, hts⟩ := List.pairwise_cons.mp h
    have hne := hlp t List.mem_cons_self
    unfold insertLp
    split
    next hle =>
      refine List.pairwise_cons.mpr ⟨fun u hu => ?_, h⟩
      obtain rfl | hu := List.mem_cons.mp hu
      · omega
      · have := ht u hu
        omega
    next hgt =>
      refine List.pairwise_cons.mpr ⟨fun u hu => ?_,
        ih hts fun u hu => hlp u (List.mem_cons_of_mem t hu)⟩
      obtain rfl | hu := List.mem_cons.mp ((insertLp_perm lp ts).mem_iff.mp hu)
      · omega
      · exact ht u hu

/-- Taking out the one with a number leaves the others. -/
theorem perm_cons_filter_id {l : List LogicalProcessor} {lp : LogicalProcessor} {n : Nat}
    (hnodup : (l.map (·.id)).Nodup) (hlp : lp ∈ l) (hid : lp.id = n) :
    l.Perm (lp :: l.filter fun t => t.id != n) := by
  have hfilter : (l.filter fun t => t.id != n) = l.erase lp := by
    rw [(hnodup.of_map _).erase_eq_filter]
    refine List.filter_congr fun t ht => ?_
    rw [Bool.eq_iff_iff, bne_iff_ne, bne_iff_ne, ← hid]
    exact not_congr ⟨fun h => List.inj_on_of_nodup_map hnodup ht hlp h, fun h => h ▸ rfl⟩
  rw [hfilter]
  exact List.perm_cons_erase hlp

/-- What a scheduling that completes leaves (R405). -/
structure Scheduled (n : Nat) (s t : State) : Prop where
  present : t.cur.present = true
  id : t.cur.id = n
  code : t.code = s.code
  pending : t.pending = s.pending
  draws : t.draws = s.draws
  perm : s.numbersOk = true → t.threads.Perm s.threads
  numbersOk : s.numbersOk = true → t.numbersOk = true

theorem scheduled_of_applySchedule {n : Nat} {s t : State} (h : applySchedule n s = .next t) :
    Scheduled n s t := by
  obtain ⟨⟨hpresent, hid⟩, rfl⟩ | ⟨-, lp, hfind, rfl⟩ := applySchedule_next h
  · exact ⟨hpresent, hid, rfl, rfl, rfl, fun _ => .refl _, fun h => h⟩
  · have hmem := List.mem_of_find?_eq_some hfind
    have hfound := List.find?_some hfind
    simp only [Bool.and_eq_true, beq_iff_eq] at hfound
    obtain ⟨hpresent, hid⟩ := hfound
    refine ⟨hpresent, hid, rfl, rfl, rfl, fun hnumbers => ?_, fun hnumbers => ?_⟩
    · have hnodup : (s.others.map (·.id)).Nodup := (State.nodup_ids hnumbers).of_cons
      calc
        (lp :: insertLp s.cur (s.others.filter fun t => t.id != n)).Perm
            (lp :: s.cur :: s.others.filter fun t => t.id != n) := (insertLp_perm _ _).cons lp
        List.Perm _ (s.cur :: lp :: s.others.filter fun t => t.id != n) := .swap _ _ _
        List.Perm _ (s.cur :: s.others) := (perm_cons_filter_id hnodup hmem hid).symm.cons _
    · obtain ⟨hascending, hcur⟩ := State.numbersOk_iff.mp hnumbers
      refine State.numbersOk_iff.mpr ⟨pairwise_insertLp (hascending.filter _) fun t ht =>
        hcur t (List.mem_of_mem_filter ht), fun t ht => ?_⟩
      obtain rfl | ht := List.mem_cons.mp ((insertLp_perm _ _).mem_iff.mp ht)
      · exact (hcur lp hmem).symm
      · have hne := (List.mem_filter.mp ht).2
        rw [bne_iff_ne] at hne
        exact fun heq => hne (heq.trans hid)

theorem State.hasLp_iff {s : State} {n : Nat} :
    s.hasLp n = true ↔ ∃ lp ∈ s.threads, lp.present = true ∧ lp.id = n := by
  simp only [State.hasLp, State.lps, List.any_eq_true, List.mem_filter, beq_iff_eq, and_assoc]

theorem applySchedule_of_hasLp {n : Nat} {s : State} (h : s.hasLp n = true) :
    ∃ t, applySchedule n s = .next t := by
  unfold applySchedule
  split
  next => exact ⟨_, rfl⟩
  next hcur =>
    obtain ⟨lp, hlp, hpresent, hid⟩ := State.hasLp_iff.mp h
    obtain rfl | hlp := List.mem_cons.mp hlp
    · exact absurd ⟨hpresent, hid⟩ hcur
    · have hfind : (s.others.find? fun t => t.present && t.id == n).isSome = true :=
        List.find?_isSome.mpr ⟨lp, hlp, by simp [hpresent, hid]⟩
      obtain ⟨u, hu⟩ := Option.isSome_iff_exists.mp hfind
      rw [hu]
      exact ⟨_, rfl⟩

/-- Settles O52: the one scheduled changes places with the one that executed. -/
theorem schedulingOnlyReorders : Obligations.SchedulingOnlyReorders := by
  intro s n hnumbers hlp
  obtain ⟨t, ht⟩ := applySchedule_of_hasLp hlp
  have h := scheduled_of_applySchedule ht
  exact ⟨t, ht, h.id, h.perm hnumbers, h.code, h.pending, h.draws⟩

theorem coreCount_perm {l l' : List LogicalProcessor} (h : l'.Perm l) :
    coreCount l' = coreCount l := by
  unfold coreCount
  rw [h.countP_eq]
  exact List.countP_congr fun t _ => by rw [h.all_eq]

theorem State.topologyOk_iff {s : State} : s.topologyOk = true ↔
    s.cur.present = true ∧ ∀ lp ∈ s.lps, lp.cfg.cores = coreCount s.lps ∧
      lp.cfg.threadsPerCore = (s.coreLps lp.core).length := by
  simp only [State.topologyOk, Bool.and_eq_true, List.all_eq_true, decide_eq_true_iff]

/-- The order of the logical processors is no part of the topology, but that the executing one is of the
package. -/
theorem State.topologyOk_of_perm {s t : State} (hperm : t.threads.Perm s.threads)
    (hpresent : t.cur.present = true) (h : s.topologyOk = true) : t.topologyOk = true := by
  have hlps : t.lps.Perm s.lps := hperm.filter _
  obtain ⟨-, hall⟩ := State.topologyOk_iff.mp h
  refine State.topologyOk_iff.mpr ⟨hpresent, fun lp hlp => ?_⟩
  obtain ⟨hcores, hthreads⟩ := hall lp (hlps.mem_iff.mp hlp)
  have hcore : (t.coreLps lp.core).length = (s.coreLps lp.core).length := (hlps.filter _).length_eq
  exact ⟨hcores.trans (coreCount_perm hlps).symm, hthreads.trans hcore.symm⟩

/-! ### Reset and load -/

theorem tsxCtrlReset_reserved (c : Cfg) : tsxCtrlReset c &&& ~~~3 = 0 := by
  refine (and_not_eq_zero_iff _ _).mpr fun n hn => ?_
  have hlt : n < 2 := by
    simp only [tsxCtrlReset, BitVec.getLsbD_setWidth, Bool.and_eq_true] at hn
    exact BitVec.lt_of_getLsbD hn.2
  exact (getLsbD_ones 2 n (by omega)).trans (decide_eq_true hlt)

theorem valid_resetTo {c : Cfg} (here : Bool) (lp : LogicalProcessor) (hc : cfgWf c = true) :
    Valid (lp.resetTo c here) where
  cfg := hc
  specCtrl n hn := by simp [LogicalProcessor.resetTo] at hn
  rtmAllow hlocked := by
    simp only [LogicalProcessor.resetTo, getLsbD_mcuReset, mcuResetBit] at hlocked ⊢
    grind
  gdsMitgDis _ := by simp only [LogicalProcessor.resetTo, getLsbD_mcuReset, mcuResetBit, Bool.false_and]
  mcuOptCtrl n hn := by
    simp only [LogicalProcessor.resetTo, getLsbD_mcuReset, Bool.and_eq_true] at hn
    exact hn.2
  tsxCtrl := tsxCtrlReset_reserved c
  uarchMiscCtl := BitVec.zero_and
  apicExtd hlocked := by
    simp only [LogicalProcessor.resetTo, legacyXapicDisabled, Bool.and_eq_true] at hlocked ⊢
    rw [hlocked.2, Bool.or_true]
  gdsLockHeld hheld := absurd hheld Bool.false_ne_true

/-- A field across a load keeps what held of its value before, of the reset value and of 0. -/
theorem loadField_induction {α : Type} {P : α → Prop} {before after : Bool} {kept fresh dropped : α}
    (hkept : P kept) (hfresh : P fresh) (hdropped : P dropped) :
    P (loadField before after kept fresh dropped) := by
  unfold loadField
  split_ifs <;> assumption

theorem valid_loadTo {c : Cfg} (here : Bool) {lp : LogicalProcessor} (hc : cfgWf c = true)
    (h : Valid lp) : Valid (lp.loadTo c here) where
  cfg := hc
  specCtrl n hn := by
    simp only [LogicalProcessor.loadTo, BitVec.getLsbD_and, getLsbD_specCtrlImplemented,
      Bool.and_eq_true] at hn
    exact hn.2.2
  rtmAllow hlocked := by
    have hallow := h.rtmAllow
    simp only [LogicalProcessor.loadTo, getLsbD_mcuLoaded, mcuResetBit, mcuBitEnumerated] at hlocked ⊢
    grind
  gdsMitgDis _ := by
    simp only [LogicalProcessor.loadTo, getLsbD_mcuLoaded]
    rfl
  mcuOptCtrl n hn := by
    simp only [LogicalProcessor.loadTo, getLsbD_mcuLoaded] at hn ⊢
    split_ifs at hn with h5 h4
    · subst h5
      exact (Bool.and_eq_true_iff.mp hn).1
    · exact (Bool.and_eq_true_iff.mp hn).1
    · exact (Bool.and_eq_true_iff.mp hn).1
  tsxCtrl := loadField_induction (P := fun v => v &&& ~~~3 = 0) h.tsxCtrl (tsxCtrlReset_reserved c) rfl
  uarchMiscCtl := loadField_induction (P := fun v => v &&& ~~~1 = 0) h.uarchMiscCtl rfl rfl
  apicExtd hlocked := by
    simp only [LogicalProcessor.loadTo, legacyXapicDisabled] at hlocked ⊢
    rw [hlocked, Bool.or_true]
  gdsLockHeld hheld := by
    simp only [LogicalProcessor.loadTo] at hheld ⊢
    grind

/-! ### What a step can be -/

/-- The event a step applies, if it applies one. -/
def State.headEvent (s : State) : Option EnvEvent :=
  match s.pending with
  | .event e :: _ => some e
  | .execute :: _ => none
  | [] => none

theorem State.headEvent_eq_some {s : State} {e : EnvEvent} (h : s.headEvent = some e) :
    ∃ q, s.pending = .event e :: q := by
  unfold State.headEvent at h
  split at h
  next e' q hq =>
    cases h
    exact ⟨q, hq⟩
  all_goals cases h

/-- What the invariants see of a turn (`none`) or an event that completes. -/
inductive StepShape (s t : State) : Option EnvEvent → Prop
  | inPlace (e : Option EnvEvent) (hthreads : List.Forall₂ LocalChange s.threads t.threads)
      (hcode : t.code = s.code) : StepShape s t e
  | scheduled (e : Option EnvEvent) (hpresent : t.cur.present = true) (hcode : t.code = s.code)
      (hperm : s.numbersOk = true → t.threads.Perm s.threads)
      (hnumbers : s.numbersOk = true → t.numbersOk = true) : StepShape s t e
  | reset (a : CfgAssignment) (here : LogicalProcessor → Bool)
      (hcfg : ∀ lp ∈ s.threads, cfgWf (a.forLp lp.id) = true)
      (hthreads : t.threads = s.threads.map fun lp => lp.resetTo (a.forLp lp.id) (here lp))
      (htopology : t.topologyOk = true) (hcode : t.code = s.code) : StepShape s t (some (.reset a))
  | load (a : CfgAssignment) (here : LogicalProcessor → Bool)
      (hcfg : ∀ lp ∈ s.threads, cfgWf (a.forLp lp.id) = true)
      (hthreads : t.threads =
        s.threads.map fun lp => lp.takeDueAbort.loadTo (a.forLp lp.id) (here lp))
      (htopology : t.topologyOk = true) (hcode : t.code = s.code) : StepShape s t (some (.mcuLoad a))

/-- The queue has no part in it. -/
theorem StepShape.of_pending {s t : State} {e : Option EnvEvent} (q : List Input)
    (h : StepShape { s with pending := q } t e) : StepShape s t e := by
  cases h with
  | inPlace _ hthreads hcode => exact .inPlace e hthreads hcode
  | scheduled _ hpresent hcode hperm hnumbers => exact .scheduled e hpresent hcode hperm hnumbers
  | reset a here hcfg hthreads htopology hcode =>
    exact .reset a here hcfg hthreads htopology hcode
  | load a here hcfg hthreads htopology hcode => exact .load a here hcfg hthreads htopology hcode

theorem stepShape_runCur {s t : State} (e : Option EnvEvent) (h : runCur s = .next t) :
    StepShape s t e := by
  obtain ⟨-, habort⟩ | ⟨-, i, rest, -, hexec⟩ := runCur_next h
  · obtain rfl := complete_next habort
    exact .inPlace e (.cons (localChange_takeDueAbort s.cur) (List.forall₂_same.mpr fun _ _ => .refl _)) rfl
  · have hc := completion_of_exec hexec
    exact .inPlace e (hc.forall₂ hc.localChange .refl localChange_note) hc.code

theorem stepShape_applyToLp {n : Nat} {f : LogicalProcessor → LogicalProcessor} {s t : State}
    (e : Option EnvEvent) (h : applyToLp n f s = .next t) (hf : ∀ lp, LocalChange lp (f lp)) :
    StepShape s t e :=
  .inPlace e (forall₂_applyToLp h .refl hf) (code_applyToLp h)

theorem localChange_onNumber {n : Nat} {f : LogicalProcessor → LogicalProcessor}
    (hf : ∀ lp, LocalChange lp (f lp)) (lp : LogicalProcessor) : LocalChange lp (onNumber n f lp) := by
  unfold onNumber
  split
  · exact hf lp
  · exact .refl lp

theorem stepShape_applyEnclaveEnter {n : Nat} {s t : State} (ev : Option EnvEvent)
    (h : applyEnclaveEnter n s = .next t) : StepShape s t ev := by
  obtain ⟨e, -, rfl⟩ := applyEnclaveEnter_next h
  refine .inPlace ev ?_ rfl
  rw [enclaveEntered, State.onAll_threads, State.drawn_threads, List.forall₂_map_right_iff]
  exact List.forall₂_same.mpr fun lp _ =>
    (localChange_onNumber localChange_enter lp).trans (localChange_abortForSibling _ _ _ _)

theorem stepShape_applyRtmBegin {n k : Nat} {s t : State} (ev : Option EnvEvent)
    (h : applyRtmBegin n k s = .next t) : StepShape s t ev := by
  obtain ⟨lp, -, ⟨-, rfl⟩ | ⟨-, rfl⟩⟩ := applyRtmBegin_next h
  · exact .inPlace ev (forall₂_onLp s n .refl localChange_takeDueAbort) rfl
  · exact .inPlace ev (forall₂_onLp s n .refl (localChange_begin k)) rfl

theorem State.accepts_cfgWf {s : State} {a : CfgAssignment} (h : s.accepts a = true) :
    ∀ lp ∈ s.threads, cfgWf (a.forLp lp.id) = true := by
  rw [State.accepts, Bool.and_eq_true] at h
  exact List.all_eq_true.mp h.1

theorem stepShape_applyEvent {s t : State} (e : EnvEvent) (h : applyEvent e s = .next t) :
    StepShape s t (some e) := by
  cases e with
  | schedule n =>
    have hs := scheduled_of_applySchedule h
    exact .scheduled _ hs.present hs.code hs.perm hs.numbersOk
  | reset a =>
    obtain ⟨haccepts, rfl⟩ := applyReset_next h
    exact .reset a _ (State.accepts_cfgWf haccepts) rfl
      (topologyOk_of_accepts haccepts fun lp => rfl) rfl
  | mcuLoad a =>
    obtain ⟨haccepts, rfl⟩ := applyMcuLoad_next h
    exact .load a _ (State.accepts_cfgWf haccepts) rfl
      (topologyOk_of_accepts haccepts fun lp => by simp [topologyFields, LogicalProcessor.loadTo]) rfl
  | init n => exact stepShape_applyToLp _ h .refl
  | sipi n => exact stepShape_applyToLp _ h .refl
  | mcheckComplete n => exact stepShape_applyToLp _ h localChange_mcheck
  | enclaveEnter n => exact stepShape_applyEnclaveEnter _ h
  | enclaveExit n => exact stepShape_applyToLp _ h localChange_leave
  | rtmBegin n k => exact stepShape_applyRtmBegin _ h
  | rtmEnd n => exact stepShape_applyToLp _ h localChange_endRtm
  | rtmLock n => exact stepShape_applyToLp _ h localChange_lockRtm
  | software n a b c d ip => exact stepShape_applyToLp _ h (localChange_putRegisters a b c d ip)

theorem stepShape_step {s t : State} (h : step s = .next t) : StepShape s t s.headEvent := by
  obtain ⟨hq, hstep⟩ | ⟨q, hq, hstep⟩ | ⟨e, q, hq, hstep⟩ := step_cases s <;> rw [hstep] at h
  · exact stepShape_runCur _ h
  · exact (stepShape_runCur _ h).of_pending q
  · have hevent : s.headEvent = some e := by rw [State.headEvent, hq]
    rw [hevent]
    exact (stepShape_applyEvent e h).of_pending q

/-! ### The invariant of the machine -/

theorem State.ok_iff {s : State} : s.ok = true ↔ (∀ lp ∈ s.threads, Valid lp) ∧
    s.numbersOk = true ∧ s.topologyOk = true ∧ Memory.wf s.code = true := by
  simp only [State.ok, Bool.and_eq_true, List.all_eq_true, lpOk_iff, and_assoc]

/-- A property that a relation carries over holds of all once it held of all. -/
theorem forall_mem_of_forall₂ {α : Type} {R : α → α → Prop} {P : α → Prop} {l l' : List α}
    (h : List.Forall₂ R l l') (hR : ∀ a b, R a b → P a → P b) (hl : ∀ a ∈ l, P a) : ∀ b ∈ l', P b := by
  induction h with
  | nil => exact fun _ hb => absurd hb List.not_mem_nil
  | cons hab _ ih =>
    rw [List.forall_mem_cons] at hl ⊢
    exact ⟨hR _ _ hab hl.1, ih hl.2⟩

/-- A projection that a relation keeps is the same, one by one. -/
theorem map_eq_of_forall₂ {α β : Type} {R : α → α → Prop} {f : α → β} {l l' : List α}
    (h : List.Forall₂ R l l') (hR : ∀ a b, R a b → f b = f a) : l'.map f = l.map f := by
  induction h with
  | nil => rfl
  | cons hab _ ih => rw [List.map_cons, List.map_cons, hR _ _ hab, ih]

theorem StepShape.keeps_numbersOk {s t : State} {e : Option EnvEvent} (h : StepShape s t e)
    (hnumbers : s.numbersOk = true) : t.numbersOk = true := by
  cases h with
  | scheduled _ _ _ _ hnumbers' => exact hnumbers' hnumbers
  | inPlace _ hthreads =>
    rw [State.numbersOk_congr (map_eq_of_forall₂ hthreads fun _ _ h => h.id), hnumbers]
  | reset a here hcfg hthreads =>
    rw [State.numbersOk_congr (t := t) (s := s) (by rw [hthreads, List.map_map]; rfl), hnumbers]
  | load a here hcfg hthreads =>
    have hids : t.threads.map (·.id) = s.threads.map (·.id) := by
      rw [hthreads, List.map_map]
      exact List.map_congr_left fun lp _ => lp.takeDueAbort_id
    rw [State.numbersOk_congr hids, hnumbers]

theorem StepShape.keeps_ok {s t : State} {e : Option EnvEvent} (h : StepShape s t e)
    (hok : s.ok = true) : t.ok = true := by
  obtain ⟨hvalid, hnumbers, htopology, hcode⟩ := State.ok_iff.mp hok
  have hnumbers' := h.keeps_numbersOk hnumbers
  rw [State.ok_iff]
  cases h with
  | inPlace _ hthreads hcode' =>
    refine ⟨forall_mem_of_forall₂ hthreads (fun _ _ h => h.valid) hvalid, hnumbers', ?_,
      hcode' ▸ hcode⟩
    rw [State.topologyOk_congr (map_eq_of_forall₂ hthreads fun _ _ h => h.topology), htopology]
  | scheduled _ hpresent hcode' hperm =>
    have hp := hperm hnumbers
    exact ⟨fun lp hlp => hvalid lp (hp.mem_iff.mp hlp), hnumbers',
      State.topologyOk_of_perm hp hpresent htopology, hcode' ▸ hcode⟩
  | reset a here hcfg hthreads htopology' hcode' =>
    refine ⟨?_, hnumbers', htopology', hcode' ▸ hcode⟩
    rw [hthreads, List.forall_mem_map]
    exact fun lp hlp => valid_resetTo _ lp (hcfg lp hlp)
  | load a here hcfg hthreads htopology' hcode' =>
    refine ⟨?_, hnumbers', htopology', hcode' ▸ hcode⟩
    rw [hthreads, List.forall_mem_map]
    exact fun lp hlp =>
      valid_loadTo _ (hcfg lp hlp) ((localChange_takeDueAbort lp).valid (hvalid lp hlp))

/-- Settles O55: each shape of a step keeps the four parts of the invariant. -/
theorem everyStepKeepsTheInvariant : Obligations.EveryStepKeepsTheInvariant :=
  fun _ _ hok h => (stepShape_step h).keeps_ok hok

/-- Settles O56: each part of the invariant is evaluated at the state after reset. -/
theorem resetStateHasTheInvariant : Obligations.ResetStateHasTheInvariant := by
  change State.reset.ok = true
  decide

/-! ### What a step that is no reset keeps of each logical processor -/

/-- The same logical processor after a step that is no reset: its number, its history and its locks, the
last two while they are enumerated. -/
structure Successor (lp lp' : LogicalProcessor) : Prop where
  id : lp'.id = lp.id
  gdsLocked : gdsLocked lp = true → gdsLocked lp' = true
  rtmLocked : lp.cfg.mcuRtmBits = true → lp'.cfg.mcuRtmBits = true →
    lp.mcuOptCtrl.getLsbD 2 = true → lp'.mcuOptCtrl.getLsbD 2 = true
  xapicDisabled : msrExists .xapicDisableStatus lp.cfg = true →
    msrExists .xapicDisableStatus lp'.cfg = true →
    lp.xapicDisabled = true → lp'.xapicDisabled = true
  events : lp.events <+: lp'.events

theorem LocalChange.successor {lp lp' : LogicalProcessor} (h : LocalChange lp lp') :
    Successor lp lp' :=
  ⟨h.id, h.gdsLocked, fun _ _ => h.rtmLocked, fun _ _ => h.xapicDisabled, h.events⟩

theorem successor_loadTo (c : Cfg) (here : Bool) (lp : LogicalProcessor) :
    Successor lp (lp.loadTo c here) where
  id := rfl
  gdsLocked h := by
    simp only [Machine.gdsLocked, LogicalProcessor.loadTo, getLsbD_mcuLoaded] at h ⊢
    grind
  rtmLocked hold hnew h := by
    simp only [LogicalProcessor.loadTo, getLsbD_mcuLoaded, mcuBitEnumerated] at hnew ⊢
    simp only [hold, hnew, h]
    rfl
  xapicDisabled hold hnew h := by
    simp only [LogicalProcessor.loadTo, xapicLoaded, loadField] at hnew ⊢
    simp only [hold, hnew, h, if_true]
  events := List.prefix_append _ _

theorem Successor.of_localChange {a b c : LogicalProcessor} (h : LocalChange a b)
    (h' : Successor b c) : Successor a c := by
  have hcfg : b.cfg = a.cfg := congrArg (fun p => p.2.2.2) h.topology
  exact ⟨h'.id.trans h.id, h'.gdsLocked ∘ h.gdsLocked,
    fun ha hc hlock => h'.rtmLocked (hcfg ▸ ha) hc (h.rtmLocked hlock),
    fun ha hc hlock => h'.xapicDisabled (hcfg ▸ ha) hc (h.xapicDisabled hlock),
    h.events.trans h'.events⟩

theorem exists_mem_of_forall₂ {α : Type} {R : α → α → Prop} {l l' : List α}
    (h : List.Forall₂ R l l') : ∀ a ∈ l, ∃ b ∈ l', R a b := by
  induction h with
  | nil => exact fun _ ha => absurd ha List.not_mem_nil
  | cons hab _ ih =>
    rw [List.forall_mem_cons]
    refine ⟨⟨_, List.mem_cons_self, hab⟩, fun a ha => ?_⟩
    obtain ⟨b, hb, hR⟩ := ih a ha
    exact ⟨b, List.mem_cons_of_mem _ hb, hR⟩

theorem exists_successor {s t : State} (hnumbers : s.numbersOk = true) (h : step s = .next t)
    (hreset : ∀ a q, s.pending ≠ .event (.reset a) :: q) :
    ∀ lp ∈ s.threads, ∃ lp' ∈ t.threads, Successor lp lp' := by
  generalize hevent : s.headEvent = e
  have hshape := stepShape_step h
  rw [hevent] at hshape
  intro lp hlp
  cases hshape with
  | inPlace _ hthreads =>
    exact exists_mem_of_forall₂ (hthreads.imp fun _ _ h => h.successor) lp hlp
  | scheduled _ _ _ hperm =>
    exact ⟨lp, (hperm hnumbers).mem_iff.mpr hlp, (LocalChange.refl lp).successor⟩
  | reset a =>
    obtain ⟨q, hq⟩ := State.headEvent_eq_some hevent
    exact absurd hq (hreset a q)
  | load a here _ hthreads =>
    rw [hthreads]
    exact ⟨_, List.mem_map_of_mem hlp,
      .of_localChange (localChange_takeDueAbort lp) (successor_loadTo _ _ _)⟩

/-- Settles O57: the step keeps each lock; where GDS_MITG_LOCK is enumerated none is held, and where it is
not the stored bit is 0. -/
theorem locksAreOneWay : Obligations.LocksAreOneWay := by
  refine ⟨fun s t hok h hreset lp hlp => ?_, fun lp hlp => ⟨fun henum => ?_, fun hnot => ?_⟩⟩
  · obtain ⟨-, hnumbers, -⟩ := State.ok_iff.mp hok
    obtain ⟨lp', hlp', hsucc⟩ := exists_successor hnumbers h hreset lp hlp
    exact ⟨lp', hlp', hsucc.id, hsucc.gdsLocked, hsucc.rtmLocked, hsucc.xapicDisabled⟩
  · have hheld : lp.gdsLockHeld = false := by
      by_contra hne
      rw [(lpOk_iff.mp hlp).gdsLockHeld (Bool.eq_true_of_not_eq_false hne)] at henum
      cases henum
    rw [gdsLocked, hheld, Bool.or_false]
  · by_contra hne
    have henum : archCapBit lp.cfg 25 = true :=
      (lpOk_iff.mp hlp).mcuOptCtrl 5 (Bool.eq_true_of_not_eq_false hne)
    rw [hnot] at henum
    cases henum

/-- Settles O58: the step keeps each history and adds to its end. -/
theorem eventHistoryIsAppendOnly : Obligations.EventHistoryIsAppendOnly := by
  intro s t hnumbers h hreset lp hlp
  obtain ⟨lp', hlp', hsucc⟩ := exists_successor hnumbers h hreset lp hlp
  exact ⟨lp', hlp', hsucc.id, hsucc.events⟩

end Sys2Proof.Machine
end

section
/-! Enclaves and transactions (R375): where the behaviour holds, no logical processor is in a transaction
beside a sibling in an enclave. -/

namespace Sys2Proof.Machine

/-- A sibling in an enclave excludes a transaction of `lp` exactly where `lp`'s configuration has the
behaviour and some other logical processor of the package on its core is in an enclave (R227, R375). -/
theorem siblingInEnclaveBlocksTsx_iff {s : State} {lp : LogicalProcessor} :
    siblingInEnclaveBlocksTsx s lp = true ↔
      taaSgxBehaviour lp.cfg = true ∧ lp.cfg.hyperthreading = true ∧
        ∃ t ∈ s.threads, t.present = true ∧ t.core = lp.core ∧ t.id ≠ lp.id ∧ t.inEnclave = true := by
  simp only [siblingInEnclaveBlocksTsx, Bool.and_eq_true, List.any_eq_true, State.mem_siblings,
    State.lps, List.mem_filter, and_assoc]

/-- `a` is in a transaction that `b`, in an enclave beside it, excludes. -/
def Excluded (a b : LogicalProcessor) : Prop :=
  (a.present = true ∧ taaSgxBehaviour a.cfg = true ∧ a.cfg.hyperthreading = true ∧
    a.inRtm = true) ∧
  b.present = true ∧ b.core = a.core ∧ b.id ≠ a.id ∧ b.inEnclave = true

/-- The order of the logical processors has no part in the isolation. -/
theorem State.rtmIsolated_iff {s : State} : s.rtmIsolated = true ↔
    ∀ a ∈ s.threads, ∀ b ∈ s.threads, ¬Excluded a b := by
  have key (a : LogicalProcessor) : siblingInEnclaveBlocksTsx s a = true ∧ a.inRtm = true ∧
      a.present = true ↔ ∃ b ∈ s.threads, Excluded a b := by
    rw [siblingInEnclaveBlocksTsx_iff]
    constructor
    · rintro ⟨⟨htaa, hht, b, hb, hpresent, hcore, hid, henclave⟩, hrtm, ha⟩
      exact ⟨b, hb, ⟨ha, htaa, hht, hrtm⟩, hpresent, hcore, hid, henclave⟩
    · rintro ⟨b, hb, ⟨ha, htaa, hht, hrtm⟩, hpresent, hcore, hid, henclave⟩
      exact ⟨⟨htaa, hht, b, hb, hpresent, hcore, hid, henclave⟩, hrtm, ha⟩
  simp only [State.rtmIsolated, State.lps, List.all_eq_true, List.mem_filter, Bool.not_eq_true',
    Bool.and_eq_false_imp, and_imp]
  constructor
  · intro h a ha b hb hexcluded
    obtain ⟨hblocks, hrtm, hpresent⟩ := (key a).mpr ⟨b, hb, hexcluded⟩
    rw [h a ha hpresent hblocks] at hrtm
    cases hrtm
  · intro h a ha hpresent hblocks
    by_contra hrtm
    obtain ⟨b, hb, hexcluded⟩ := (key a).mp ⟨hblocks, Bool.eq_true_of_not_eq_false hrtm, hpresent⟩
    exact h a ha b hb hexcluded

/-! ### Changes that start no transaction and enter no enclave -/

/-- A change that keeps the place, starts no transaction and enters no enclave. -/
structure Calm (lp lp' : LogicalProcessor) : Prop where
  topology : topologyFields lp' = topologyFields lp
  inEnclave : lp'.inEnclave = true → lp.inEnclave = true
  inRtm : lp'.inRtm = true → lp.inRtm = true

theorem Calm.of_eq {lp lp' : LogicalProcessor} (htopology : topologyFields lp' = topologyFields lp)
    (hinEnclave : lp'.inEnclave = lp.inEnclave) (hinRtm : lp'.inRtm = lp.inRtm) : Calm lp lp' :=
  ⟨htopology, fun h => hinEnclave ▸ h, fun h => hinRtm ▸ h⟩

theorem Calm.refl (lp : LogicalProcessor) : Calm lp lp := .of_eq rfl rfl rfl

theorem calm_takeDueAbort (lp : LogicalProcessor) : Calm lp lp.takeDueAbort where
  topology := by simp only [topologyFields, LogicalProcessor.takeDueAbort_present,
    LogicalProcessor.takeDueAbort_core, LogicalProcessor.takeDueAbort_id,
    LogicalProcessor.takeDueAbort_cfg]
  inEnclave h := by rwa [LogicalProcessor.takeDueAbort_inEnclave] at h
  inRtm h := by
    unfold LogicalProcessor.takeDueAbort at h
    split at h
    · exact absurd h (by simp)
    · exact h

theorem Calm.trans {a b c : LogicalProcessor} (h : Calm a b) (h' : Calm b c) : Calm a c :=
  ⟨h'.topology.trans h.topology, h.inEnclave ∘ h'.inEnclave, h.inRtm ∘ h'.inRtm⟩

theorem calm_leave (lp : LogicalProcessor) : Calm lp lp.leave where
  topology := (localChange_leave lp).topology
  inEnclave h := absurd h Bool.false_ne_true
  inRtm h := by
    simp only [LogicalProcessor.leave, overwriteAt] at h
    split at h <;> exact h

theorem calm_endRtm (lp : LogicalProcessor) : Calm lp lp.endRtm :=
  (calm_takeDueAbort lp).trans ⟨rfl, id, fun h => absurd h Bool.false_ne_true⟩

theorem calm_putRegisters (a b c d : Word) (ip : Nat) (lp : LogicalProcessor) :
    Calm lp (lp.putRegisters a b c d ip) :=
  (calm_takeDueAbort lp).trans (.of_eq rfl rfl rfl)

theorem Completion.calm {s t : State} {i : Instr} (h : Completion s i t) : Calm s.cur t.cur where
  topology := h.localChange.topology
  inEnclave he := h.sameContext.inEnclave ▸ he
  inRtm hrtm := by
    by_cases hxbegin : ∃ rel, i = .xbegin rel
    · obtain ⟨rel, rfl⟩ := hxbegin
      cases h with
      | xbegin => simp at hrtm
      | random _ _ _ hr => simp at hr
      | ret _ hr => simp at hr
    · rwa [h.inRtm_eq fun rel hrel => hxbegin ⟨rel, hrel⟩] at hrtm

/-- What the exclusion says of the places, read back to before a change that keeps them. -/
theorem Excluded.place {a a' b b' : LogicalProcessor} (h : Excluded a' b')
    (ha : topologyFields a' = topologyFields a) (hb : topologyFields b' = topologyFields b) :
    (a.present = true ∧ taaSgxBehaviour a.cfg = true ∧ a.cfg.hyperthreading = true) ∧
      b.core = a.core ∧ b.id ≠ a.id := by
  obtain ⟨⟨hpresent, htaa, hht, -⟩, -, hcore, hid, -⟩ := h
  simp only [topologyFields, Prod.mk.injEq] at ha hb
  obtain ⟨hap, hac, hai, hacfg⟩ := ha
  obtain ⟨-, hbc, hbi, -⟩ := hb
  exact ⟨⟨hap ▸ hpresent, hacfg ▸ htaa, hacfg ▸ hht⟩, hbc ▸ hac ▸ hcore, hbi ▸ hai ▸ hid⟩

/-- Only the transaction of the one and the enclave of the other count, beside the place of both. -/
theorem Excluded.of_changes {a a' b b' : LogicalProcessor}
    (hatopology : topologyFields a' = topologyFields a) (hinRtm : a'.inRtm = true → a.inRtm = true)
    (hbtopology : topologyFields b' = topologyFields b)
    (hinEnclave : b'.inEnclave = true → b.inEnclave = true) (h : Excluded a' b') : Excluded a b := by
  obtain ⟨⟨hpresent, htaa, hht⟩, hcore, hid⟩ := h.place hatopology hbtopology
  obtain ⟨⟨-, -, -, hrtm⟩, hbpresent, -, -, henclave⟩ := h
  have hbp : b'.present = b.present := congrArg (fun p => p.1) hbtopology
  exact ⟨⟨hpresent, htaa, hht, hinRtm hrtm⟩, hbp ▸ hbpresent, hcore, hid, hinEnclave henclave⟩

theorem exists_mem_of_forall₂_right {α : Type} {R : α → α → Prop} {l l' : List α}
    (h : List.Forall₂ R l l') : ∀ b ∈ l', ∃ a ∈ l, R a b :=
  exists_mem_of_forall₂ (R := flip R) h.flip

theorem rtmIsolated_of_calm {s t : State} (h : List.Forall₂ Calm s.threads t.threads)
    (hs : s.rtmIsolated = true) : t.rtmIsolated = true := by
  rw [State.rtmIsolated_iff] at hs ⊢
  intro a' ha' b' hb' hexcluded
  obtain ⟨a, ha, hcalma⟩ := exists_mem_of_forall₂_right h a' ha'
  obtain ⟨b, hb, hcalmb⟩ := exists_mem_of_forall₂_right h b' hb'
  exact hs a ha b hb (hexcluded.of_changes hcalma.topology hcalma.inRtm hcalmb.topology hcalmb.inEnclave)

theorem rtmIsolated_of_applyToLp {n : Nat} {f : LogicalProcessor → LogicalProcessor} {s t : State}
    (h : applyToLp n f s = .next t) (hf : ∀ lp, Calm lp (f lp)) (hs : s.rtmIsolated = true) :
    t.rtmIsolated = true :=
  rtmIsolated_of_calm (forall₂_applyToLp h .refl hf) hs

theorem rtmIsolated_of_runCur {s t : State} (h : runCur s = .next t) (hs : s.rtmIsolated = true) :
    t.rtmIsolated = true := by
  obtain ⟨-, habort⟩ | ⟨-, i, rest, -, hexec⟩ := runCur_next h
  · obtain rfl := complete_next habort
    exact rtmIsolated_of_calm
      (.cons (calm_takeDueAbort s.cur) (List.forall₂_same.mpr fun _ _ => .refl _)) hs
  · have hc := completion_of_exec hexec
    exact rtmIsolated_of_calm
      (hc.forall₂ hc.calm .refl fun e lp => .of_eq rfl rfl rfl) hs

/-! ### Entering an enclave and beginning a transaction -/

theorem State.findLp_eq_some {s : State} {n : Nat} {lp : LogicalProcessor}
    (h : s.findLp n = some lp) : lp ∈ s.threads ∧ lp.present = true ∧ lp.id = n := by
  have hmem := List.mem_of_find?_eq_some h
  have hid := List.find?_some h
  rw [State.lps, List.mem_filter] at hmem
  exact ⟨hmem.1, hmem.2, beq_iff_eq.mp hid⟩

theorem onNumber_of_id_eq {n : Nat} {f : LogicalProcessor → LogicalProcessor} {lp : LogicalProcessor}
    (h : lp.id = n) : onNumber n f lp = f lp := if_pos h

theorem onNumber_of_id_ne {n : Nat} {f : LogicalProcessor → LogicalProcessor} {lp : LogicalProcessor}
    (h : lp.id ≠ n) : onNumber n f lp = lp := if_neg h

theorem calm_abortForSibling (draws n core : Nat) (lp : LogicalProcessor) :
    Calm lp (abortForSibling draws n core lp) where
  topology := (localChange_abortForSibling draws n core lp).topology
  inEnclave h := by
    unfold abortForSibling at h
    split at h <;> exact h
  inRtm h := by
    unfold abortForSibling at h
    split at h
    · exact absurd h (by simp)
    · exact h

/-- A sibling whose configuration has the behaviour is in no transaction after the entry (R375). -/
theorem abortForSibling_inRtm {draws n core : Nat} {lp : LogicalProcessor}
    (hpresent : lp.present = true) (hcore : lp.core = core) (hid : lp.id ≠ n)
    (htaa : taaSgxBehaviour lp.cfg = true) (hht : lp.cfg.hyperthreading = true) :
    (abortForSibling draws n core lp).inRtm = false := by
  unfold abortForSibling
  split
  next => rfl
  next h => simpa [hpresent, hcore, hid, htaa, hht] using h

theorem enter_inRtm (lp : LogicalProcessor) : lp.enter.inRtm = lp.inRtm := by
  simp only [LogicalProcessor.enter, overwriteAt]
  split <;> rfl

/-- What an enclave entry does to each logical processor. -/
theorem enclaveEntered_threads (n core : Nat) (s : State) : (enclaveEntered n core s).threads =
    s.threads.map fun lp => abortForSibling s.draws n core (onNumber n LogicalProcessor.enter lp) := by
  rw [enclaveEntered, State.onAll_threads, State.drawn_threads]

theorem forall_mem_enclaveEntered {n core : Nat} {s : State} {P : LogicalProcessor → Prop} :
    (∀ lp ∈ (enclaveEntered n core s).threads, P lp) ↔
      ∀ lp ∈ s.threads, P (abortForSibling s.draws n core (onNumber n LogicalProcessor.enter lp)) := by
  rw [enclaveEntered_threads, List.forall_mem_map]

/-- Who enters an enclave starts no transaction, and every sibling it excludes has aborted. -/
theorem rtmIsolated_of_applyEnclaveEnter {n : Nat} {s t : State} (hnumbers : s.numbersOk = true)
    (h : applyEnclaveEnter n s = .next t) (hs : s.rtmIsolated = true) : t.rtmIsolated = true := by
  obtain ⟨e, he, rfl⟩ := applyEnclaveEnter_next h
  obtain ⟨hemem, -, heid⟩ := State.findLp_eq_some he
  rw [State.rtmIsolated_iff] at hs ⊢
  have htopology (lp : LogicalProcessor) :
      topologyFields (abortForSibling s.draws n e.core (onNumber n LogicalProcessor.enter lp)) =
        topologyFields lp :=
    ((localChange_onNumber localChange_enter lp).trans (localChange_abortForSibling _ _ _ _)).topology
  have hrtm (lp : LogicalProcessor) :
      (abortForSibling s.draws n e.core (onNumber n LogicalProcessor.enter lp)).inRtm = true →
        lp.inRtm = true := by
    intro hin
    have hin := (calm_abortForSibling _ _ _ _).inRtm hin
    unfold onNumber at hin
    split at hin
    · rwa [enter_inRtm] at hin
    · exact hin
  rw [forall_mem_enclaveEntered]
  intro a ha
  rw [forall_mem_enclaveEntered]
  intro b hb hexcluded
  by_cases hbn : b.id = n
  · obtain rfl : b = e := State.eq_of_id_eq hnumbers hb hemem (hbn.trans heid.symm)
    obtain ⟨⟨hpresent, htaa, hht⟩, hcore, hid⟩ := hexcluded.place (htopology a) (htopology b)
    obtain ⟨⟨-, -, -, hstill⟩, -⟩ := hexcluded
    have han : a.id ≠ n := fun han => hid (hbn.trans han.symm)
    rw [onNumber_of_id_ne han, abortForSibling_inRtm hpresent hcore.symm han htaa hht] at hstill
    cases hstill
  · have hcalm : Calm b (abortForSibling s.draws n e.core (onNumber n LogicalProcessor.enter b)) := by
      rw [onNumber_of_id_ne hbn]
      exact calm_abortForSibling _ _ _ _
    exact hs a ha b hb (hexcluded.of_changes (htopology a) (hrtm a) hcalm.topology hcalm.inEnclave)

/-- Either the attempt has no effect but an abort that is due, or no sibling is in an enclave. -/
theorem rtmIsolated_of_applyRtmBegin {n k : Nat} {s t : State} (hnumbers : s.numbersOk = true)
    (h : applyRtmBegin n k s = .next t) (hs : s.rtmIsolated = true) : t.rtmIsolated = true := by
  obtain ⟨lp, hlp, ⟨-, rfl⟩ | ⟨hfree, rfl⟩⟩ := applyRtmBegin_next h
  · exact rtmIsolated_of_calm (forall₂_onLp s n .refl calm_takeDueAbort) hs
  · obtain ⟨hlpmem, -, hlpid⟩ := State.findLp_eq_some hlp
    rw [State.rtmIsolated_iff] at hs ⊢
    have hlocal (u : LogicalProcessor) :=
      localChange_onNumber (n := n) (localChange_begin k) u
    have henclave (u : LogicalProcessor) :
        (onNumber n (fun lp => lp.takeDueAbort.begin k) u).inEnclave = true → u.inEnclave = true := by
      unfold onNumber
      split
      · exact (calm_takeDueAbort u).inEnclave
      · exact id
    rw [State.onLp, State.onAll_threads, List.forall_mem_map]
    intro a ha
    rw [List.forall_mem_map]
    intro b hb hexcluded
    by_cases han : a.id = n
    · obtain rfl : a = lp := State.eq_of_id_eq hnumbers ha hlpmem (han.trans hlpid.symm)
      obtain ⟨⟨-, htaa, hht⟩, hcore, hid⟩ :=
        hexcluded.place (hlocal a).topology (hlocal b).topology
      obtain ⟨-, hpresent, -, -, hin⟩ := hexcluded
      have hbpresent : b.present = true :=
        (congrArg (fun p => p.1) (hlocal b).topology).symm.trans hpresent
      have hblocks : siblingInEnclaveBlocksTsx s a = true :=
        siblingInEnclaveBlocksTsx_iff.mpr
          ⟨htaa, hht, b, hb, hbpresent, hcore, hid, henclave b hin⟩
      rw [hfree] at hblocks
      cases hblocks
    · rw [onNumber_of_id_ne han] at hexcluded
      exact hs a ha b hb (hexcluded.of_changes rfl id (hlocal b).topology (henclave b))

/-! ### Every step -/

theorem rtmIsolated_of_applyEvent {s t : State} {e : EnvEvent} (hnumbers : s.numbersOk = true)
    (hload : ∀ a, e ≠ .mcuLoad a) (h : applyEvent e s = .next t) (hs : s.rtmIsolated = true) :
    t.rtmIsolated = true := by
  cases e with
  | schedule n =>
    have hperm := (scheduled_of_applySchedule h).perm hnumbers
    rw [State.rtmIsolated_iff] at hs ⊢
    exact fun a ha b hb => hs a (hperm.mem_iff.mp ha) b (hperm.mem_iff.mp hb)
  | reset a =>
    rw [State.rtmIsolated_iff, applyReset_next_threads h, List.forall_mem_map]
    rintro lp - b - ⟨⟨-, -, -, hrtm⟩, -⟩
    cases hrtm
  | mcuLoad a => exact absurd rfl (hload a)
  | enclaveEnter n => exact rtmIsolated_of_applyEnclaveEnter hnumbers h hs
  | rtmBegin n k => exact rtmIsolated_of_applyRtmBegin hnumbers h hs
  | init n => exact rtmIsolated_of_applyToLp h .refl hs
  | sipi n => exact rtmIsolated_of_applyToLp h .refl hs
  | mcheckComplete n => exact rtmIsolated_of_applyToLp h (fun _ => .of_eq rfl rfl rfl) hs
  | enclaveExit n => exact rtmIsolated_of_applyToLp h calm_leave hs
  | rtmEnd n => exact rtmIsolated_of_applyToLp h calm_endRtm hs
  | rtmLock n => exact rtmIsolated_of_applyToLp h (fun _ => .of_eq rfl rfl rfl) hs
  | software n a b c d ip => exact rtmIsolated_of_applyToLp h (calm_putRegisters a b c d ip) hs

theorem rtmIsolated_of_step {s t : State} (hnumbers : s.numbersOk = true)
    (hs : s.rtmIsolated = true) (h : step s = .next t)
    (hload : ∀ a q, s.pending ≠ .event (.mcuLoad a) :: q) : t.rtmIsolated = true := by
  obtain ⟨hq, hstep⟩ | ⟨q, hq, hstep⟩ | ⟨e, q, hq, hstep⟩ := step_cases s <;> rw [hstep] at h
  · exact rtmIsolated_of_runCur h hs
  · exact rtmIsolated_of_runCur h hs
  · exact rtmIsolated_of_applyEvent (s := { s with pending := q }) hnumbers
      (fun a he => hload a q (he ▸ hq)) h hs

/-- Settles O59: most steps are calm; an entry aborts the siblings it excludes, and a transaction begins
only beside no enclave. -/
theorem enclavesAndTransactionsStayApart : Obligations.EnclavesAndTransactionsStayApart := by
  refine ⟨fun s t hnumbers hs h hload => ⟨(stepShape_step h).keeps_numbersOk hnumbers,
    rtmIsolated_of_step hnumbers hs h hload⟩, ?_, ?_⟩ <;> decide

end Sys2Proof.Machine
end

section
/-! CPUID (`40_cpuid.md`): what it outputs for each leaf, and what its outputs do not depend on. -/

namespace Sys2Proof.Machine

/-- CPUID and each of its rows where selected complete with the outputs of the leaf and subleaf. -/
theorem exec_cpuid_or_row {i : Instr} {s : State} {o : CpuidOut} (hbase : i.base = .cpuid)
    (hselects : rowSelects i s.cur = true) (ho : cpuidOut s.cur = o) :
    exec i s = .next { s with cur := { s.cur with
      eax := o.eax, ebx := o.ebx, ecx := o.ecx, edx := o.edx, ip := s.cur.ip + 2 } } := by
  rw [exec_of_rowSelects hselects, hbase, exec_cpuid, cpuidComplete_eq_next ho]

/-! ### Leaf 07H (R30, R32, R161, R162) -/

theorem getLsbD_c70Edx (lp : LogicalProcessor) (n : Nat) : (c70Edx lp).getLsbD n =
    if n = 11 then lp.cfg.c70Edx.getLsbD 11 &&
      !(lp.cfg.c70Edx.getLsbD 13 && lp.tsxForceAbort.getLsbD 2)
    else lp.cfg.c70Edx.getLsbD n :=
  getLsbD_setBit_of_lt _ _ _ (by omega)

theorem getLsbD_c70Ebx (lp : LogicalProcessor) (n : Nat) : (c70Ebx lp).getLsbD n =
    if n = 11 then lp.cfg.skuRtm && !tsxCpuidClear lp
    else if n = 4 then lp.cfg.skuHle && !tsxCpuidClear lp
    else lp.cfg.c70Ebx.getLsbD n := by
  rw [c70Ebx, getLsbD_setBit_of_lt _ _ _ (by omega), getLsbD_setBit_of_lt _ _ _ (by omega)]

/-- Settles O12: the outputs of the row, and the computed bits 11 of EDX and 4 and 11 of EBX. -/
theorem cpuidLeaf7MainResults : Obligations.CpuidLeaf7MainResults := by
  intro s i hi hleaf hsub
  have hrow : i.base = .cpuid ∧ rowSelects i s.cur = true := by
    obtain rfl | rfl := hi
    · exact ⟨rfl, rfl⟩
    · exact ⟨rfl, decide_eq_true ⟨hleaf, hsub⟩⟩
  refine ⟨c70Ebx s.cur, c70Edx s.cur,
    exec_cpuid_or_row hrow.1 hrow.2 (cpuidOut_leaf7Sub0 hleaf hsub), fun n hn => ?_, ?_,
    fun n h4 h11 => ?_, ?_, ?_⟩
  · rw [getLsbD_c70Edx, if_neg hn]
  · rw [getLsbD_c70Edx, if_pos rfl]
  · rw [getLsbD_c70Ebx, if_neg h11, if_neg h4]
  · rw [getLsbD_c70Ebx]
    rfl
  · rw [getLsbD_c70Ebx]
    rfl

/-- Settles O13: the outputs of the row, which are the configured values. -/
theorem cpuidLeaf7SecondResults : Obligations.CpuidLeaf7SecondResults := by
  intro s i hi hleaf hsub hmax
  have hvalid : subleafValid s.cur = true := subleafValid_iff.mpr (by rw [hsub]; exact hmax)
  have hout := cpuidOut_leaf7Sub2 hleaf hsub hvalid
  obtain rfl | rfl := hi
  · exact exec_cpuid_or_row rfl rfl hout
  · exact exec_cpuid_or_row (i := .cpuidLeaf7Sub2) rfl (decide_eq_true ⟨hleaf, hsub, hmax⟩) hout

/-- Settles O15: every other subleaf and leaf is the configuration's function. -/
theorem otherLeavesReturnTheConfiguration : Obligations.OtherLeavesReturnTheConfiguration := by
  refine ⟨fun s i hi hleaf h0 h2 hmax => ?_, fun s i hi hleaf => ?_⟩
  · have hout := cpuidOut_leaf7Other hleaf h0 h2 (subleafValid_iff.mpr hmax)
    obtain rfl | rfl := hi
    · exact exec_cpuid_or_row rfl rfl hout
    · exact exec_cpuid_or_row rfl (decide_eq_true ⟨hleaf, h0, h2, hmax⟩) hout
  · have hout := cpuidOut_otherLeaf hleaf
    obtain rfl | rfl := hi
    · exact exec_cpuid_or_row rfl rfl hout
    · exact exec_cpuid_or_row rfl (decide_eq_true hleaf) hout

/-! ### What CPUID does not see (R168) -/

/-- CPUID reads the leaf, the subleaf, the configuration and the two computed registers only. -/
theorem cpuidOut_congr {lp lp' : LogicalProcessor} (heax : lp'.eax = lp.eax)
    (hecx : lp'.ecx = lp.ecx) (hcfg : lp'.cfg = lp.cfg) (hebx : c70Ebx lp' = c70Ebx lp)
    (hedx : c70Edx lp' = c70Edx lp) : cpuidOut lp' = cpuidOut lp := by
  have hvalid : subleafValid lp' = subleafValid lp := by
    rw [subleafValid, subleafValid, hecx, hcfg]
  have hsub0 : cpuidLeaf7Sub0Out lp' = cpuidLeaf7Sub0Out lp := by
    rw [cpuidLeaf7Sub0Out, cpuidLeaf7Sub0Out, hcfg, hebx, hedx]
  have hsub2 : cpuidLeaf7Sub2Out lp' = cpuidLeaf7Sub2Out lp := by
    rw [cpuidLeaf7Sub2Out, cpuidLeaf7Sub2Out, c72Edx, c72Edx, hcfg]
  have hother (leaf sub : Word) : cpuidOtherOut leaf sub lp' = cpuidOtherOut leaf sub lp := by
    rw [cpuidOtherOut, cpuidOtherOut, hcfg]
  rw [cpuidOut, cpuidOut, heax, hecx, hvalid, hsub0, hsub2, hother, hother]

/-- The EBX bits follow the two TSX_CPUID_CLEAR bits alone (R32). -/
theorem c70Ebx_congr {lp lp' : LogicalProcessor} (hcfg : lp'.cfg = lp.cfg)
    (htsx : lp'.tsxCtrl.getLsbD 1 = lp.tsxCtrl.getLsbD 1)
    (htfa : lp'.tsxForceAbort.getLsbD 1 = lp.tsxForceAbort.getLsbD 1) : c70Ebx lp' = c70Ebx lp := by
  simp only [c70Ebx, tsxCpuidClear, hcfg, htsx, htfa]

/-- EDX[11] follows SDV_ENABLE_RTM alone (R30). -/
theorem c70Edx_congr {lp lp' : LogicalProcessor} (hcfg : lp'.cfg = lp.cfg)
    (htfa : lp'.tsxForceAbort.getLsbD 2 = lp.tsxForceAbort.getLsbD 2) : c70Edx lp' = c70Edx lp := by
  simp only [c70Edx, hcfg, htfa]

/-- Settles O16: RTM_DISABLE and RTM_FORCE_ABORT are bits 0, and CPUID reads bits 1 and 2. -/
theorem cpuidIgnoresTheOtherControls : Obligations.CpuidIgnoresTheOtherControls := by
  intro s disable force lock mcu spec uarch cpl lp'
  have hout : cpuidOut lp' = cpuidOut s.cur := by
    refine cpuidOut_congr rfl rfl rfl (c70Ebx_congr rfl ?_ ?_) (c70Edx_congr rfl ?_)
    · exact getLsbD_setBit_other _ _ _ _ (by omega)
    · exact getLsbD_setBit_other _ _ _ _ (by omega)
    · exact getLsbD_setBit_other _ _ _ _ (by omega)
  exact ⟨_, _, exec_cpuid_or_row rfl rfl rfl, exec_cpuid_or_row rfl rfl hout, rfl, rfl, rfl, rfl, rfl⟩

end Sys2Proof.Machine
end

section
/-! RDMSR: the value it returns, and reading or writing back what was read (R108, R190, R198, R201,
R204). -/

namespace Sys2Proof.Machine

/-! ### The value read -/

theorem getLsbD_apicBaseValue (lp : LogicalProcessor) (n : Nat) : (apicBaseValue lp).getLsbD n =
    if n = 10 then lp.apicExtd else lp.apicOther.getLsbD n :=
  getLsbD_setBit_of_lt _ _ _ (by omega)

theorem getLsbD_tfaReadValue (lp : LogicalProcessor) (n : Nat) : (tfaReadValue lp).getLsbD n =
    if n = 0 then tfaReadBit0 lp else lp.tsxForceAbort.getLsbD n := by
  have hwidth : (tfaReadValue lp).getLsbD n = (setBit lp.tsxForceAbort 0 (tfaReadBit0 lp)).getLsbD n := by
    rw [tfaReadValue, BitVec.getLsbD_setWidth]
    by_cases hn : n < 64
    · simp [hn]
    · rw [BitVec.getLsbD_of_ge _ n (by omega), Bool.and_false]
  rw [hwidth, getLsbD_setBit_of_lt _ _ _ (by omega)]

theorem getLsbD_mcuRead (lp : LogicalProcessor) (n : Nat) :
    (msrRead .mcuOptCtrl lp).getLsbD n = (mcuBitEnumerated lp.cfg n && lp.mcuOptCtrl.getLsbD n) := by
  rw [msrRead, BitVec.getLsbD_and, getLsbD_mcuImplemented, Bool.and_comm]

theorem not_rdmsrBlocked {m : Msr} {lp : LogicalProcessor} (hcpl : lp.cpl = 0)
    (hexists : msrExists m lp.cfg = true) (hclass : msrClass m ≠ .writeOnly) :
    ¬rdmsrBlocked m lp := by
  simp [rdmsrBlocked, hcpl, hexists, hclass]

/-- Settles O24: the checks pass, and the value is `msrRead`, register by register. -/
theorem rdmsrReturnsTheStoredValue : Obligations.RdmsrReturnsTheStoredValue := by
  intro s m i hi hecx hcpl hexists hpred hflush
  have hclass : msrClass m ≠ .writeOnly := by
    rw [ne_eq, msrClass_eq_writeOnly_iff]
    exact not_or.mpr ⟨hpred, hflush⟩
  refine ⟨msrRead m s.cur, ?_, ?_, ?_, ?_, ?_, ?_, ?_, ?_, ?_⟩
  · rw [exec_rdmsr_or_row hi hecx, rdmsrOf_of_not_blocked (not_rdmsrBlocked hcpl hexists hclass)]
    rfl
  all_goals rintro rfl
  · rfl
  · rfl
  · rfl
  · rfl
  · rfl
  · exact ⟨by rw [msrRead, getLsbD_apicBaseValue, if_pos rfl],
      fun n hn => by rw [msrRead, getLsbD_apicBaseValue, if_neg hn]⟩
  · exact getLsbD_mcuRead s.cur
  · exact ⟨by rw [msrRead, getLsbD_tfaReadValue, if_pos rfl]; rfl,
      fun n hn => by rw [msrRead, getLsbD_tfaReadValue, if_neg hn]⟩

/-! ### Reading twice -/

/-- No MSR is read off EAX, EDX or `ip`. -/
theorem msrRead_after_rdmsr (m : Msr) (v : Quad) (n : Nat) (lp : LogicalProcessor) :
    msrRead m ((putEdxEax v lp).advance n) = msrRead m lp := by
  cases m <;> rfl

/-- Everything an RDMSR that completes has passed and done. -/
theorem exec_rdmsr_next {s t : State} (h : exec .rdmsr s = .next t) :
    ∃ m, s.cur.ecx = msrIndex m ∧ readLicensed m s.cur = true ∧
      t = s.onCur fun lp => (putEdxEax (msrRead m lp) lp).advance 2 := by
  have hc := completion_execRdmsr h
  generalize hi : Instr.rdmsr = i at hc
  cases hc with
  | rdmsr m hecx hlicensed => exact ⟨m, hecx, hlicensed, rfl⟩
  | random _ _ _ hr => subst hi; simp at hr
  | ret _ hr => subst hi; simp at hr
  | _ => cases hi

/-- Settles O25: reading changes neither what is read nor the checks, and the halves are there already. -/
theorem readingTwiceGivesTheSame : Obligations.ReadingTwiceGivesTheSame := by
  intro s t h
  obtain ⟨m, hecx, hlicensed, rfl⟩ := exec_rdmsr_next h
  refine (exec_rdmsr_of_index (m := m) (by exact hecx)).trans ?_
  refine (rdmsrOf_of_licensed (by exact hlicensed)).trans ?_
  simp only [complete, State.onCur, msrRead_after_rdmsr]
  rfl

/-! ### Writing back what was read -/

theorem and_eq_of_and_not_eq_zero {w : Nat} {v m : BitVec w} (h : v &&& ~~~m = 0#w) : v &&& m = v := by
  apply BitVec.eq_of_getLsbD_eq
  intro n _
  have hbit := (and_not_eq_zero_iff v m).mp h n
  rw [BitVec.getLsbD_and]
  grind

theorem tfaWritten_read (lp : LogicalProcessor) : tfaWritten (tfaReadValue lp) lp = lp.tsxForceAbort := by
  apply BitVec.eq_of_getLsbD_eq
  intro n hn
  simp only [tfaWritten, getLsbD_setBit, getLsbD_tfaReadValue, tfaReadBit0]
  grind

theorem gdsLockWritten_read (lp : LogicalProcessor) :
    gdsLockWritten (msrRead .mcuOptCtrl lp) lp = lp.mcuOptCtrl.getLsbD 5 := by
  rw [gdsLockWritten, getLsbD_mcuRead]
  cases lp.mcuOptCtrl.getLsbD 5 with
  | false => simp only [Bool.and_false, Bool.or_false]
  | true => exact Bool.true_or _

theorem mcuWritten_read {lp : LogicalProcessor} (h : Valid lp) :
    mcuWritten (msrRead .mcuOptCtrl lp) lp = lp.mcuOptCtrl := by
  apply BitVec.eq_of_getLsbD_eq
  intro n hn
  rw [getLsbD_mcuWritten, gdsLockWritten_read]
  simp only [getLsbD_mcuRead]
  cases henum : mcuBitEnumerated lp.cfg n with
  | false => rfl
  | true =>
    rw [if_neg Bool.true_eq_false.mp]
    split_ifs with h1 hlocked h2 h4 h5
    · rw [h1]
    · rw [← h1, henum, Bool.true_and]
    · rw [h2]
    · rw [← h4, henum, Bool.true_and]
      cases hlock : lp.mcuOptCtrl.getLsbD 5 with
      | false => rfl
      | true => rw [h4, h.gdsMitgDis hlock]; rfl
    · rw [h5]
    · rw [Bool.true_and]

theorem xapicLockWritten_read (lp : LogicalProcessor) :
    xapicLockWritten (apicBaseValue lp) lp = lp.xapicDisabled := by
  rw [xapicLockWritten, getLsbD_apicBaseValue, if_pos rfl]
  cases lp.apicExtd <;> simp

/-- Writing what is read changes no MSR (R198, R204). -/
theorem msrWrite_msrRead {m : Msr} {lp : LogicalProcessor} (h : Valid lp)
    (hclass : msrClass m = .readWrite) : msrWrite m (msrRead m lp) lp = lp := by
  cases m with
  | specCtrl => rfl
  | tsxForceAbort => simp only [msrWrite, msrRead, tfaWritten_read]
  | tsxCtrl => simp only [msrWrite, msrRead, and_eq_of_and_not_eq_zero h.tsxCtrl]
  | mcuOptCtrl => simp only [msrWrite, mcuWritten_read h]
  | uarchMiscCtl => simp only [msrWrite, msrRead, and_eq_of_and_not_eq_zero h.uarchMiscCtl]
  | apicBase =>
    have hextd : (apicBaseValue lp).getLsbD 10 = lp.apicExtd := by
      rw [getLsbD_apicBaseValue, if_pos rfl]
    simp only [msrWrite, msrRead, xapicLockWritten_read, hextd]
  | predCmd | xapicDisableStatus | archCapabilities | flushCmd => cases hclass

/-- What is read has a 0 in every reserved position (R204). -/
theorem msrRead_reserved {m : Msr} {lp : LogicalProcessor} (h : Valid lp)
    (hclass : msrClass m = .readWrite) : msrRead m lp &&& msrReserved m lp.cfg = 0 := by
  rw [and_msrReserved_eq_zero_iff]
  intro n hn
  cases m with
  | specCtrl => exact h.specCtrl n hn
  | mcuOptCtrl =>
    rw [getLsbD_mcuRead, Bool.and_eq_true] at hn
    exact hn.1
  | tsxCtrl =>
    rw [msrRead, BitVec.getLsbD_and, Bool.and_eq_true] at hn
    rw [← getLsbD_msrNotReserved .tsxCtrl _ n (BitVec.lt_of_getLsbD hn.1)]
    exact hn.2
  | uarchMiscCtl =>
    rw [msrRead, BitVec.getLsbD_and, Bool.and_eq_true] at hn
    rw [← getLsbD_msrNotReserved .uarchMiscCtl _ n (BitVec.lt_of_getLsbD hn.1)]
    exact hn.2
  | tsxForceAbort =>
    rw [msrRead, getLsbD_tfaReadValue] at hn
    split at hn
    next h0 => simp [bitMayBeSet, h0]
    next => exact decide_eq_true (Nat.lt_succ_iff.mp (BitVec.lt_of_getLsbD hn))
  | apicBase => rfl
  | predCmd | xapicDisableStatus | archCapabilities | flushCmd => cases hclass

/-- What is read keeps the fields outside the spec and sets no bit that may not be set. -/
theorem msrRead_legal (m : Msr) {lp : LogicalProcessor} (h : Valid lp) :
    msrOutside m (msrRead m lp) lp = false ∧ msrLegal m (msrRead m lp) lp = true := by
  cases m with
  | tsxForceAbort =>
    refine ⟨rfl, ?_⟩
    simp only [msrLegal, msrRead, tfaIllegalBit1, tfaIllegalBit2, getLsbD_tfaReadValue,
      Nat.one_ne_zero, OfNat.ofNat_ne_zero, if_false, Bool.and_not_self, Bool.false_and, Bool.not_false,
      Bool.and_self]
  | apicBase =>
    refine ⟨msrOutside_apicBase_eq_false_iff.mpr fun n hn => ?_, ?_⟩
    · rw [msrRead, getLsbD_apicBaseValue, if_neg hn]
    · have hextd := h.apicExtd
      simp only [msrLegal, msrRead, apicClearsLockedExtd, getLsbD_apicBaseValue]
      grind
  | _ => exact ⟨rfl, rfl⟩

theorem exec_wrmsr_of_licensed {m : Msr} {s : State} {i : Instr} (hi : i = .wrmsr ∨ i = wrmsrRow m)
    (hecx : s.cur.ecx = msrIndex m) (h : writeLicensed m (edxEax s.cur) s.cur = true) :
    exec i s = complete s fun lp => (msrWrite m (edxEax s.cur) lp).advance 2 := by
  rw [exec_wrmsr_or_row hi hecx, wrmsrOf_of_licensed h]

/-- Settles O26: what was read is licensed to be written, and writing it changes no MSR. -/
theorem writingBackChangesNothing : Obligations.WritingBackChangesNothing := by
  intro s t m hok hecx hclass h
  obtain ⟨m', hecx', hlicensed, ht⟩ := exec_rdmsr_next h
  obtain rfl : m' = m := msrIndex_injective (hecx'.symm.trans hecx)
  have hcur : t.cur = (putEdxEax (msrRead m' s.cur) s.cur).advance 2 := by
    rw [ht]
    rfl
  have hvalid : Valid t.cur := by
    rw [hcur]
    exact (LocalChange.of_fields rfl rfl List.prefix_rfl).valid (lpOk_iff.mp hok)
  have hoperand : edxEax t.cur = msrRead m' t.cur := by
    rw [hcur, msrRead_after_rdmsr]
    exact edxEax_putEdxEax _ s.cur
  have hwrite : writeLicensed m' (edxEax t.cur) t.cur = true := by
    obtain ⟨houtside, hlegal⟩ := msrRead_legal m' hvalid
    have hread : t.cur.cpl = 0 ∧ msrExists m' t.cur.cfg = true := by
      rw [hcur]
      simpa [readLicensed, hclass] using hlicensed
    rw [hoperand, writeLicensed_iff]
    exact ⟨hread.1, hread.2, by rw [hclass]; simp, msrRead_reserved hvalid hclass, houtside, hlegal⟩
  have hecxt : t.cur.ecx = msrIndex m' := by
    rw [hcur]
    exact hecx
  rw [exec_wrmsr_of_licensed (.inl rfl) hecxt hwrite, hoperand]
  simp only [complete, State.onCur, msrWrite_msrRead hvalid hclass]
  rw [ht]
  rfl

end Sys2Proof.Machine
end

section
/-! WRMSR, register by register (R251, R265, R270, R273, R291, R295, R321, R333, R351, R359 to R361). -/

namespace Sys2Proof.Machine

/-! ### Registers every admitted value of which is legal -/

theorem not_wrmsrBlocked {m : Msr} {lp : LogicalProcessor} (hcpl : lp.cpl = 0)
    (hexists : msrExists m lp.cfg = true) (hclass : msrClass m ≠ .readOnly)
    (hbits : ∀ n, (edxEax lp).getLsbD n = true → bitMayBeSet m lp.cfg n = true) :
    ¬wrmsrBlocked m lp := by
  simp only [wrmsrBlocked, not_or, ne_eq, not_not]
  exact ⟨hcpl, by simp [hexists], hclass, and_msrReserved_eq_zero_iff.mpr hbits⟩

/-- WRMSR of an admitted value to a register without conditions of its own completes. -/
theorem exec_wrmsr_of_admitted {m : Msr} {s : State} {i : Instr} (hi : i = .wrmsr ∨ i = wrmsrRow m)
    (hecx : s.cur.ecx = msrIndex m) (hcpl : s.cur.cpl = 0) (hexists : msrExists m s.cur.cfg = true)
    (hclass : msrClass m ≠ .readOnly) (htfa : m ≠ .tsxForceAbort) (hapic : m ≠ .apicBase)
    (hbits : ∀ n, (edxEax s.cur).getLsbD n = true → bitMayBeSet m s.cur.cfg n = true) :
    exec i s = .next { s with cur := (msrWrite m (edxEax s.cur) s.cur).advance 2 } := by
  have hplain : msrOutside m (edxEax s.cur) s.cur = false ∧
      msrLegal m (edxEax s.cur) s.cur = true := by
    cases m with
    | tsxForceAbort => exact absurd rfl htfa
    | apicBase => exact absurd rfl hapic
    | _ => exact ⟨rfl, rfl⟩
  have hlicensed : writeLicensed m (edxEax s.cur) s.cur = true :=
    writeLicensed_iff.mpr ⟨hcpl, hexists, hclass, and_msrReserved_eq_zero_iff.mpr hbits, hplain.1,
      hplain.2⟩
  rw [exec_wrmsr_of_licensed hi hecx hlicensed]
  rfl

/-- With EDX 0 the operand is EAX. -/
theorem edxEax_lt_of_getLsbD {lp : LogicalProcessor} {k n : Nat} (hedx : lp.edx = 0)
    (heax : lp.eax.toNat < 2 ^ k) (hn : (edxEax lp).getLsbD n = true) : n < k := by
  have hval : (edxEax lp).toNat = lp.eax.toNat := by
    rw [edxEax, hedx, BitVec.toNat_append]
    simp
  have hpow : 2 ^ n ≤ lp.eax.toNat := by
    rw [← hval]
    exact Nat.ge_two_pow_of_testBit hn
  exact (Nat.pow_lt_pow_iff_right (by omega)).mp (hpow.trans_lt heax)

/-- Settles O27: the value is admitted by the table, and the write stores it. -/
theorem plainRegistersTakeTheValue : Obligations.PlainRegistersTakeTheValue := by
  refine ⟨fun s i hi hcpl hecx hexists hbits => ?_, fun s i hi hcpl hecx hexists hedx heax => ?_,
    fun s i hi hcpl hecx hexists hedx heax => ?_⟩
  · exact exec_wrmsr_of_admitted (m := .specCtrl) hi hecx hcpl hexists (by simp [msrClass]) (by simp)
      (by simp) hbits
  · exact exec_wrmsr_of_admitted (m := .tsxCtrl) hi hecx hcpl hexists (by simp [msrClass]) (by simp)
      (by simp) fun n hn => decide_eq_true
        (Nat.lt_succ_iff.mp (edxEax_lt_of_getLsbD (k := 2) hedx (by omega) hn))
  · exact exec_wrmsr_of_admitted (m := .uarchMiscCtl) hi hecx hcpl hexists (by simp [msrClass])
      (by simp) (by simp) fun n hn => decide_eq_true
        (Nat.lt_one_iff.mp (edxEax_lt_of_getLsbD (k := 1) hedx (by omega) hn))

/-! ### The command registers -/

/-- A command register takes its bit 0 only. -/
theorem exec_wrmsr_command {m : Msr} {s : State} {i : Instr} (hm : m = .predCmd ∨ m = .flushCmd)
    (hi : i = .wrmsr ∨ i = wrmsrRow m) (hecx : s.cur.ecx = msrIndex m) (hcpl : s.cur.cpl = 0)
    (hexists : msrExists m s.cur.cfg = true) (hedx : s.cur.edx = 0) (heax : s.cur.eax.toNat < 2) :
    exec i s = .next { s with cur := (msrWrite m (edxEax s.cur) s.cur).advance 2 } := by
  have hbits (n : Nat) (hn : (edxEax s.cur).getLsbD n = true) : n = 0 :=
    Nat.lt_one_iff.mp (edxEax_lt_of_getLsbD (k := 1) hedx heax hn)
  obtain rfl | rfl := hm
  · exact exec_wrmsr_of_admitted hi hecx hcpl hexists (by simp [msrClass]) (by simp) (by simp)
      fun n hn => decide_eq_true (hbits n hn)
  · exact exec_wrmsr_of_admitted hi hecx hcpl hexists (by simp [msrClass]) (by simp) (by simp)
      fun n hn => decide_eq_true (hbits n hn)

theorem edxEax_of_eax_eq_one {lp : LogicalProcessor} (hedx : lp.edx = 0) (heax : lp.eax = 1) :
    edxEax lp = 1 := by
  rw [edxEax, hedx, heax]
  rfl

theorem edxEax_of_eax_eq_zero {lp : LogicalProcessor} (hedx : lp.edx = 0) (heax : lp.eax = 0) :
    edxEax lp = 0 := by
  rw [edxEax, hedx, heax]
  rfl

/-- Settles O28: the operand is 1 or 0, and the write is the record or nothing. -/
theorem commandsAppendOneRecord : Obligations.CommandsAppendOneRecord := by
  refine ⟨fun s i hi hcpl hecx hexists hedx => ⟨fun heax => ?_, fun heax => ?_⟩,
    fun s i hi hcpl hecx hexists hedx => ⟨fun heax => ?_, fun heax => ?_⟩⟩
  · rw [exec_wrmsr_command (m := .predCmd) (.inl rfl) hi hecx hcpl hexists hedx (by rw [heax]; decide),
      edxEax_of_eax_eq_one hedx heax]
    rfl
  · rw [exec_wrmsr_command (m := .predCmd) (.inl rfl) hi hecx hcpl hexists hedx (by rw [heax]; decide),
      edxEax_of_eax_eq_zero hedx heax]
    rfl
  · rw [exec_wrmsr_command (m := .flushCmd) (.inr rfl) hi hecx hcpl hexists hedx (by rw [heax]; decide),
      edxEax_of_eax_eq_one hedx heax]
    rfl
  · rw [exec_wrmsr_command (m := .flushCmd) (.inr rfl) hi hecx hcpl hexists hedx (by rw [heax]; decide),
      edxEax_of_eax_eq_zero hedx heax]
    rfl

/-- Settles O29: the record is that of the command, whose bit reads the configuration alone. -/
theorem l1dFlushIgnoresFbClearDis : Obligations.L1dFlushIgnoresFbClearDis := by
  intro s mcu hcpl hecx hexists hedx heax
  obtain ⟨-, hflush⟩ := commandsAppendOneRecord
  exact ⟨_, (hflush { s with cur := { s.cur with mcuOptCtrl := mcu } } .wrmsrFlushCmd (.inr rfl) hcpl
    hecx hexists hedx).1 heax, rfl⟩

/-! ### IA32_MCU_OPT_CTRL -/

theorem exec_wrmsr_mcuOptCtrl {s : State} {i : Instr} (hi : i = .wrmsr ∨ i = .wrmsrMcuOptCtrl)
    (hcpl : s.cur.cpl = 0) (hecx : s.cur.ecx = 0x123)
    (hexists : msrExists .mcuOptCtrl s.cur.cfg = true)
    (hbits : ∀ n, (edxEax s.cur).getLsbD n = true → mcuBitEnumerated s.cur.cfg n = true) :
    exec i s = .next { s with cur := { s.cur with
      mcuOptCtrl := mcuWritten (edxEax s.cur) s.cur, ip := s.cur.ip + 2 } } :=
  exec_wrmsr_of_admitted (m := .mcuOptCtrl) hi hecx hcpl hexists (by simp [msrClass]) (by simp)
    (by simp) hbits

/-- Settles O30: the value stored is `mcuWritten`, bit by bit. -/
theorem mcuOptCtrlAfterWrite : Obligations.McuOptCtrlAfterWrite :=
  fun _ _ hi hcpl hecx hexists hbits =>
    ⟨_, exec_wrmsr_mcuOptCtrl hi hcpl hecx hexists hbits, fun n => getLsbD_mcuWritten _ _ n⟩

/-! ### IA32_TSX_FORCE_ABORT -/

theorem getLsbD_tfaWritten (v : Quad) (lp : LogicalProcessor) :
    (tfaWritten v lp).getLsbD 0 =
        (if tfaEdx11 lp then lp.tsxForceAbort.getLsbD 0 else v.getLsbD 0) ∧
      (tfaWritten v lp).getLsbD 1 = v.getLsbD 1 ∧ (tfaWritten v lp).getLsbD 2 = v.getLsbD 2 := by
  simp only [tfaWritten, getLsbD_setBit]
  simp

theorem getLsbD_tfaClamp (v : Quad) (lp : LogicalProcessor) :
    (msrClamp .tsxForceAbort v lp).getLsbD 0 = v.getLsbD 0 ∧
      (msrClamp .tsxForceAbort v lp).getLsbD 1 = (v.getLsbD 1 && !tfaIllegalBit1 v lp) ∧
      (msrClamp .tsxForceAbort v lp).getLsbD 2 = (v.getLsbD 2 && !tfaIllegalBit2 v lp) := by
  simp only [msrClamp, getLsbD_setBit]
  simp

/-- At CPL 0 with a value of three bits only legality and its policy decide (R199, R200). -/
theorem exec_wrmsr_tsxForceAbort {s : State} {i : Instr} (hi : i = .wrmsr ∨ i = .wrmsrTsxForceAbort)
    (hcpl : s.cur.cpl = 0) (hecx : s.cur.ecx = 0x10F)
    (hexists : s.cur.cfg.c70Edx.getLsbD 13 = true) (hedx : s.cur.edx = 0)
    (heax : s.cur.eax.toNat ≤ 7) :
    exec i s =
      if msrLegal .tsxForceAbort (edxEax s.cur) s.cur then
        .next { s with cur := { s.cur with
          tsxForceAbort := tfaWritten (edxEax s.cur) s.cur, ip := s.cur.ip + 2 } }
      else if msrClamps .tsxForceAbort s.cur.cfg then
        .next { s with cur := { s.cur with
          tsxForceAbort := tfaWritten (msrClamp .tsxForceAbort (edxEax s.cur) s.cur) s.cur
          ip := s.cur.ip + 2 } }
      else raiseGP s := by
  have hadmitted : ¬wrmsrBlocked .tsxForceAbort s.cur :=
    not_wrmsrBlocked hcpl hexists (by simp [msrClass]) fun n hn => decide_eq_true
      (Nat.lt_succ_iff.mp (edxEax_lt_of_getLsbD (k := 3) hedx (by omega) hn))
  rw [exec_wrmsr_or_row (m := .tsxForceAbort) hi hecx, wrmsrOf_of_not_blocked hadmitted]
  rfl

/-- Settles O31: legality is that neither bit is illegal; where the write is clamped the illegal bits are
cleared from the value. -/
theorem tsxForceAbortAfterWrite : Obligations.TsxForceAbortAfterWrite := by
  intro s i hi hcpl hecx hexists hedx heax v old edx11 bad1 bad2
  have hexec := exec_wrmsr_tsxForceAbort hi hcpl hecx hexists hedx heax
  have hlegal : msrLegal .tsxForceAbort v s.cur = !(bad1 || bad2) := (Bool.not_or _ _).symm
  obtain ⟨hw0, hw1, hw2⟩ := getLsbD_tfaWritten v s.cur
  obtain ⟨hc0, hc1, hc2⟩ := getLsbD_tfaClamp v s.cur
  rw [hlegal] at hexec
  refine ⟨fun hbad hgp => ?_, fun hok => ?_⟩
  · have hclamps : msrClamps .tsxForceAbort s.cur.cfg = false :=
      msrClamps_tsxForceAbort_eq_false_iff.mpr hgp
    rw [hexec, hbad, hclamps]
    rfl
  · cases hbad : bad1 || bad2 with
    | false =>
      rw [Bool.or_eq_false_iff] at hbad
      obtain ⟨hbad1, hbad2⟩ := hbad
      refine ⟨tfaWritten v s.cur, ?_, hw0, ?_, ?_⟩
      · rw [hexec, hbad1, hbad2]
        rfl
      · rw [hw1, hbad1, Bool.not_false, Bool.and_true]
      · rw [hw2, hbad2, Bool.not_false, Bool.and_true]
    | true =>
      have hignore : s.cur.cfg.illegalSetPolicy = .ignore :=
        hok.resolve_left (by rw [hbad]; exact Bool.false_ne_true.symm)
      have hclamps : msrClamps .tsxForceAbort s.cur.cfg = true := decide_eq_true hignore
      obtain ⟨hw0', hw1', hw2'⟩ := getLsbD_tfaWritten (msrClamp .tsxForceAbort v s.cur) s.cur
      refine ⟨_, ?_, hw0'.trans (by rw [hc0]; rfl), hw1'.trans hc1, hw2'.trans hc2⟩
      rw [hexec, hbad, hclamps]
      rfl

/-! ### IA32_APIC_BASE -/

/-- At CPL 0 only the other fields and the lock decide (R359, R360). -/
theorem exec_wrmsr_apicBase {s : State} {i : Instr} (hi : i = .wrmsr ∨ i = .wrmsrApicBase)
    (hcpl : s.cur.cpl = 0) (hecx : s.cur.ecx = 0x1B) :
    exec i s =
      if msrOutside .apicBase (edxEax s.cur) s.cur then .refused .apicBaseOtherFields
      else if msrLegal .apicBase (edxEax s.cur) s.cur then
        .next { s with cur := { s.cur with
          apicExtd := (edxEax s.cur).getLsbD 10
          xapicDisabled := xapicLockWritten (edxEax s.cur) s.cur
          ip := s.cur.ip + 2 } }
      else raiseGP s := by
  have hadmitted : ¬wrmsrBlocked .apicBase s.cur :=
    not_wrmsrBlocked hcpl rfl (by simp [msrClass]) fun _ _ => rfl
  rw [exec_wrmsr_or_row (m := .apicBase) hi hecx, wrmsrOf_of_not_blocked hadmitted]
  rfl

/-- Settles O32: a write that keeps the other fields is legal unless it clears EXTD under the lock as it
reads. -/
theorem apicBaseAfterWrite : Obligations.ApicBaseAfterWrite := by
  intro s i hi hcpl hecx
  have hexec := exec_wrmsr_apicBase hi hcpl hecx
  refine ⟨fun hkeeps hmay => ?_, fun ⟨n, hn, hdiffers⟩ => ?_⟩
  · have hinside : msrOutside .apicBase (edxEax s.cur) s.cur = false :=
      msrOutside_apicBase_eq_false_iff.mpr hkeeps
    have hlegal : msrLegal .apicBase (edxEax s.cur) s.cur = true := by
      simp only [msrLegal, apicClearsLockedExtd, legacyXapicDisabled]
      obtain h | h | h := hmay <;> rw [h] <;> simp
    rw [hexec, hinside, hlegal]
    rfl
  · have houtside : msrOutside .apicBase (edxEax s.cur) s.cur = true := by
      by_contra hnot
      exact hdiffers (msrOutside_apicBase_eq_false_iff.mp (Bool.eq_false_of_not_eq_true hnot) n hn)
    rw [hexec, houtside]
    rfl

/-- Settles O33: the write is a fault at any privilege level, and in a valid state EXTD is 1 under the
lock. -/
theorem lockedExtdCannotBeCleared : Obligations.LockedExtdCannotBeCleared := by
  refine ⟨fun s i p hi hecx hexists hlocked _ hclears hkeeps => ?_,
    fun lp hok hexists hlocked => ?_⟩
  · by_cases hcpl : s.cur.cpl = 0
    · have hinside : msrOutside .apicBase (edxEax s.cur) s.cur = false :=
        msrOutside_apicBase_eq_false_iff.mpr hkeeps
      have hillegal : msrLegal .apicBase (edxEax s.cur) s.cur = false := by
        simp only [msrLegal, apicClearsLockedExtd, legacyXapicDisabled, hexists, hlocked, hclears]
        rfl
      rw [exec_wrmsr_apicBase hi hcpl hecx, hinside, hillegal]
      rfl
    · rw [exec_wrmsr_or_row (m := .apicBase) hi hecx]
      exact wrmsrOf_of_blocked (.inl hcpl)
  · exact (lpOk_iff.mp hok).apicExtd (Bool.and_eq_true_iff.mpr ⟨hexists, hlocked⟩)

/-! ### RTM_LOCKED -/

/-- No way of completing changes RTM_LOCKED (R295). -/
theorem Completion.rtmLocked_eq {s t : State} {i : Instr} (h : Completion s i t) :
    t.cur.mcuOptCtrl.getLsbD 2 = s.cur.mcuOptCtrl.getLsbD 2 := by
  by_cases hi : i = .wrmsr
  · subst hi
    obtain ⟨m, v, -, rfl⟩ := h.exists_msrWrite
    exact (msrWrite_locks m v s.cur).2.1
  · rw [(h.sameMsrs hi).mcuOptCtrl]

theorem msrExists_mcuOptCtrl_of_mcuRtmBits {c : Cfg} (h : c.mcuRtmBits = true) :
    msrExists .mcuOptCtrl c = true :=
  (msrExists_mcuOptCtrl_iff c).mpr (.inr (.inl h))

theorem resetTo_rtmLocked (c : Cfg) (here : Bool) (lp : LogicalProcessor) :
    (lp.resetTo c here).mcuOptCtrl.getLsbD 2 = (c.mcuRtmBits && c.resetRtmLocked) :=
  (getLsbD_mcuReset c 2).trans (Bool.and_comm _ _)

/-- Settles O35: RTM_LOCKED is written by resets and the platform alone, and holds RTM_ALLOW at 0. -/
theorem rtmLockedHoldsRtmAllowAtZero : Obligations.RtmLockedHoldsRtmAllowAtZero := by
  refine ⟨fun i s t h => (completion_of_exec h).rtmLocked_eq,
    fun lp hok hlocked => (lpOk_iff.mp hok).rtmAllow hlocked,
    fun s hok hcpl hecx hrtm hlocked hbits => ?_, fun s t a h => ?_, fun lp hrtm => ?_⟩
  · refine ⟨_, exec_wrmsr_mcuOptCtrl (.inr rfl) hcpl hecx (msrExists_mcuOptCtrl_of_mcuRtmBits hrtm)
      hbits, ?_⟩
    refine (valid_mcuWritten (edxEax s.cur) (lpOk_iff.mp hok)).rtmAllow ?_
    exact (mcuWritten_rtmLocked _ _).trans hlocked
  · rw [applyReset_next_threads h, List.forall_mem_map]
    exact fun lp _ => resetTo_rtmLocked _ _ lp
  · exact ⟨by rw [getLsbD_lockRtm, if_pos ⟨hrtm, rfl⟩],
      by rw [getLsbD_lockRtm, if_neg (by simp), if_pos ⟨hrtm, rfl⟩]⟩

end Sys2Proof.Machine
end

section
/-! The effect-only instructions, the modes they depend on, and the abort of a transaction (R50, R252 to
R262, R298, R322, R335, R341, R370 to R380). -/

namespace Sys2Proof.Machine

/-! ### The predicates of the modes -/

theorem specCtrlByCpl_iff {u k : Nat} {lp : LogicalProcessor} : specCtrlByCpl u k lp = true ↔
    (lp.cpl = 3 ∧ lp.specCtrl.getLsbD u = true) ∨ (lp.cpl < 3 ∧ lp.specCtrl.getLsbD k = true) := by
  have hcpl : lp.cpl < 3 ↔ lp.cpl ≠ 3 := by
    rw [Fin.lt_def, Fin.ne_iff_vne]
    have := lp.cpl.isLt
    omega
  unfold specCtrlByCpl
  split
  next h => simp [h]
  next h => simp [hcpl, h]

theorem rrsbaActive_iff {lp : LogicalProcessor} : rrsbaActive lp = true ↔
    archCapBit lp.cfg 19 = true ∧ ¬((lp.cpl = 3 ∧ lp.specCtrl.getLsbD 5 = true) ∨
      (lp.cpl < 3 ∧ lp.specCtrl.getLsbD 6 = true)) := by
  rw [rrsbaActive, Bool.and_eq_true, Bool.not_eq_true', ← Bool.not_eq_true, specCtrlByCpl_iff]

/-- FORCE_ABORT_RTM mode, by what RDMSR returns in bit 0 (R335). -/
theorem forceAbortRtm_iff {lp : LogicalProcessor} : forceAbortRtm lp = true ↔
    lp.cfg.c70Edx.getLsbD 13 = true ∧ tfaReadBit0 lp = true := by
  rw [forceAbortRtm, Bool.and_eq_true, getLsbD_tfaReadValue, if_pos rfl]
  rfl

theorem tfaReadBit0_iff {lp : LogicalProcessor} : tfaReadBit0 lp = true ↔
    (lp.cfg.c70Edx.getLsbD 11 = true ∧ lp.tsxForceAbort.getLsbD 2 = false) ∨
      lp.tsxForceAbort.getLsbD 0 = true := by
  simp only [tfaReadBit0, tfaEdx11, c70EdxBit]
  grind

theorem pmc3Usable_iff {lp : LogicalProcessor} : pmc3Usable lp = true ↔
    lp.cfg.c70Edx.getLsbD 13 = true ∧ lp.tsxForceAbort.getLsbD 2 = false ∧
      (lp.cfg.c70Edx.getLsbD 11 = true ∨ lp.tsxForceAbort.getLsbD 0 = true) := by
  rw [pmc3Usable, Bool.and_eq_true, forceAbortRtm_iff, tfaReadBit0_iff, Bool.not_eq_true']
  tauto

theorem tfaUpdated_iff {lp : LogicalProcessor} : tfaUpdated lp = true ↔
    lp.cfg.c70Edx.getLsbD 13 = true ∧
      (lp.cfg.c70Edx.getLsbD 11 = true ∨ lp.tsxForceAbort.getLsbD 2 = true) := by
  rw [tfaUpdated, Bool.and_eq_true, Bool.or_eq_true]
  rfl

theorem stibpProtectsCore_iff {s : State} {c : Nat} : stibpProtectsCore s c = true ↔
    ∃ t ∈ s.lps, t.core = c ∧ msrExists .specCtrl t.cfg = true ∧ t.specCtrl.getLsbD 1 = true := by
  simp only [stibpProtectsCore, State.coreLps, List.any_eq_true, List.mem_filter, beq_iff_eq, stibpOn,
    specCtrlOn, Bool.and_eq_true, and_assoc]

theorem gdsMitigationDisabled_iff {s : State} {c : Nat} : gdsMitigationDisabled s c = true ↔
    ∀ t ∈ s.lps, t.core = c → t.mcuOptCtrl.getLsbD 4 = true := by
  simp only [gdsMitigationDisabled, State.coreLps, List.all_eq_true, List.mem_filter, beq_iff_eq,
    and_imp]

/-- Settles O36: each predicate is its bits. -/
theorem specCtrlModes : Obligations.SpecCtrlModes :=
  ⟨fun _ => ⟨specCtrlByCpl_iff, ⟨rfl, rfl⟩, rrsbaActive_iff, rfl, rfl, rfl, rfl, rfl, rfl,
    tfaUpdated_iff, pmc3Usable_iff, Bool.and_eq_true_iff⟩,
    fun _ _ => ⟨stibpProtectsCore_iff, gdsMitigationDisabled_iff⟩⟩

/-! ### VERW -/

theorem exec_verw (op : RmOperand) (s : State) : exec (.verw op) s =
    .next { s with cur := (verwEffect s.cur).advance (verwLength op) } := rfl

/-- What VERW appends, as a list that may be empty (R370). -/
theorem verwEffect_eq (lp : LogicalProcessor) : verwEffect lp = { lp with
    events := lp.events ++
      if verwClears lp then [.mdClear (verwClearsFb lp) (verwClearsRfds lp)] else [] } := by
  unfold verwEffect
  split
  · rfl
  · rw [List.append_nil]

/-- Settles O37: VERW appends its record, if any, and advances. -/
theorem verwAppendsItsRecord : Obligations.VerwAppendsItsRecord := by
  intro s op
  dsimp only
  rw [exec_verw, verwEffect_eq]
  simp only [LogicalProcessor.advance, verwLength, Nat.add_assoc]
  rfl

/-! ### XBEGIN -/

theorem exec_xbegin_of_cause {s : State} {rel : RelOperand} {cause : AbortCause}
    (h : xbeginCause s = some cause) : exec (.xbegin rel) s =
      .next ((s.drawnFor cause).onCur fun lp =>
        lp.rtmAbort cause (abortCode cause s.draws lp.id) (fallbackAddress lp.ip rel)) := by
  change execXbegin rel s = _
  rw [execXbegin, h]
  rfl

theorem exec_xbegin_of_no_cause {s : State} {rel : RelOperand} (h : xbeginCause s = none) :
    exec (.xbegin rel) s = .refused .xbeginNotForced := by
  change execXbegin rel s = _
  rw [execXbegin, h]
  rfl

/-- An XBEGIN that something forces aborts, as one record update (R372, R373). -/
theorem exec_xbegin_eq_next {s : State} {rel : RelOperand} {cause : AbortCause}
    (h : xbeginCause s = some cause) : exec (.xbegin rel) s = .next { s with
      draws := (s.drawnFor cause).draws
      cur := { s.cur with
        eax := abortCode cause s.draws s.cur.id, inRtm := false
        events := s.cur.events ++ [.rtmAbort cause], ip := fallbackAddress s.cur.ip rel } } := by
  rw [exec_xbegin_of_cause h]
  cases cause <;> rfl

/-- The first cause in the order of R372. -/
theorem xbeginCause_eq (s : State) : xbeginCause s =
    if (rtmDisable s.cur || rtmNotAllowed s.cur || forceAbortRtm s.cur ||
      siblingInEnclaveBlocksTsx s s.cur) = true then
      some (if rtmDisable s.cur then .rtmDisable else if rtmNotAllowed s.cur then .rtmAllow0
        else if forceAbortRtm s.cur then .forceAbort else .siblingEnclave)
    else none := by
  unfold xbeginCause
  split_ifs <;> simp_all

/-- EAX is 0 and nothing is drawn, unless a sibling in an enclave is the only cause (R373, R375). -/
theorem abort_fixed_of_ne {cause : AbortCause} (s : State) (h : cause ≠ .siblingEnclave) :
    abortCode cause s.draws s.cur.id = 0 ∧ (s.drawnFor cause).draws = s.draws := by
  cases cause with
  | siblingEnclave => exact absurd rfl h
  | _ => exact ⟨rfl, rfl⟩

theorem taaSgxBehaviour_iff {c : Cfg} : taaSgxBehaviour c = true ↔
    (c.c70Edx.getLsbD 29 = true ∧ c.archCap.getLsbD 7 = true) ∧
      ¬(c.c70Edx.getLsbD 29 = true ∧ c.archCap.getLsbD 8 = true) := by
  rw [taaSgxBehaviour, Bool.and_eq_true, archCapBit_iff, Bool.not_eq_true', ← Bool.not_eq_true,
    archCapBit_iff]

/-- Settles O38: the first of the four causes decides, and without one the step is refused. -/
theorem xbeginAbortsExactlyWhenForced : Obligations.XbeginAbortsExactlyWhenForced := by
  refine ⟨fun s rel => ?_, fun s lp => ?_⟩
  · intro disable notAllowed force
    have hcause := xbeginCause_eq s
    refine ⟨fun hnone => ?_, fun hsome => ?_⟩
    · exact exec_xbegin_of_no_cause (hcause.trans (if_neg (Bool.eq_false_iff.mp hnone)))
    · refine ⟨_, _, _, exec_xbegin_eq_next (hcause.trans (if_pos hsome)), rfl, fun hfixed => ?_⟩
      apply abort_fixed_of_ne
      change (if disable then AbortCause.rtmDisable else if notAllowed then .rtmAllow0
        else if force then .forceAbort else .siblingEnclave) ≠ _
      split_ifs <;> simp_all
  · rw [siblingInEnclaveBlocksTsx_iff, taaSgxBehaviour_iff, and_assoc]

/-- Settles O39: RTM_DISABLE is the first cause in the order, and no cause where it is clear. -/
theorem rtmDisableAbortsXbegin : Obligations.RtmDisableAbortsXbegin := by
  refine ⟨fun lp => Bool.and_eq_true_iff, fun s rel hexists hset => ?_, fun s hclear hcause => ?_⟩
  · have hcause : xbeginCause s = some .rtmDisable := by
      rw [xbeginCause, rtmDisable, hexists, hset]
      rfl
    exact ⟨_, exec_xbegin_eq_next hcause, rfl, rfl, rfl⟩
  · have hdisable : rtmDisable s.cur = false := by rw [rtmDisable, hclear, Bool.and_false]
    rw [xbeginCause, hdisable] at hcause
    split_ifs at hcause <;> simp_all

/-! ### FORCE_ABORT_RTM mode and the transaction in progress -/

theorem exists_xbegin_abort {s : State} (rel : RelOperand) (h : forceAbortRtm s.cur = true) :
    ∃ t, exec (.xbegin rel) s = .next t ∧ t.cur.eax = 0 ∧ t.cur.inRtm = false := by
  obtain ⟨cause, hcause, hne⟩ :
      ∃ cause, xbeginCause s = some cause ∧ cause ≠ AbortCause.siblingEnclave := by
    rw [xbeginCause, h, if_pos rfl]
    split_ifs <;> exact ⟨_, rfl, by simp⟩
  exact ⟨_, exec_xbegin_eq_next hcause, (abort_fixed_of_ne s hne).1, rfl⟩

/-- A turn with an abort due is that abort (R374). -/
theorem runCur_of_due {s : State} (hrtm : s.cur.inRtm = true) (hforce : forceAbortRtm s.cur = true) :
    runCur s = .next { s with cur := { s.cur with
      eax := 0, inRtm := false, events := s.cur.events ++ [.rtmAbort .forceAbort],
      ip := s.cur.rtmFallback } } := by
  have hdue : rtmMustAbort s.cur = true := by rw [rtmMustAbort, hrtm, hforce, Bool.and_self]
  rw [runCur, if_pos hdue, abortInProgress, complete, State.onCur,
    LogicalProcessor.takeDueAbort_of_due hdue]
  rfl

theorem runCur_of_not_due {s : State} (h : rtmMustAbort s.cur = false) : runCur s = runInstr s := by
  rw [runCur, h, if_neg Bool.false_ne_true]

/-- Settles O41: the turn begins with the test whether the abort is due. -/
theorem transactionInProgressAborts : Obligations.TransactionInProgressAborts := by
  refine ⟨fun s hrtm hforce => ⟨fun hq => ?_, fun q hq => ?_⟩, fun s hq hforce => ?_,
    fun lp => ⟨fun hrtm hforce => ?_, fun hnot => ?_⟩⟩
  · rw [step_of_pending_nil hq, runCur_of_due hrtm hforce]
  · rw [step_of_pending_execute hq]
    exact runCur_of_due hrtm hforce
  · rw [step_of_pending_nil hq, runCur_of_not_due (by rw [rtmMustAbort, hforce, Bool.and_false])]
  · exact LogicalProcessor.takeDueAbort_of_due (by rw [rtmMustAbort, hrtm, hforce, Bool.and_self])
  · refine LogicalProcessor.takeDueAbort_of_not_due ?_
    rw [rtmMustAbort, Bool.and_eq_false_iff]
    exact hnot

/-- CPUID reports EDX[11] where the configuration has it and SDV_ENABLE_RTM does not hide it (R30). -/
theorem c70Edx_bit11_iff {lp : LogicalProcessor} (hcfg : cfgWf lp.cfg = true) :
    (c70Edx lp).getLsbD 11 = true ↔
      lp.cfg.c70Edx.getLsbD 11 = true ∧ lp.cfg.c70Edx.getLsbD 13 = true ∧
        lp.tsxForceAbort.getLsbD 2 = false := by
  have h1113 : lp.cfg.c70Edx.getLsbD 11 = true → lp.cfg.c70Edx.getLsbD 13 = true := by
    simp only [cfgWf, c70EdxBit] at hcfg
    grind
  rw [getLsbD_c70Edx, if_pos rfl]
  grind

theorem forceAbortRtm_of_edx11 {lp : LogicalProcessor} (h11 : lp.cfg.c70Edx.getLsbD 11 = true)
    (h13 : lp.cfg.c70Edx.getLsbD 13 = true) (hsdv : lp.tsxForceAbort.getLsbD 2 = false) :
    forceAbortRtm lp = true :=
  forceAbortRtm_iff.mpr ⟨h13, tfaReadBit0_iff.mpr (.inl ⟨h11, hsdv⟩)⟩

/-- Settles O40: the mode is read bit 0, it is the third cause of XBEGIN, and where EDX[11] is reported
only SDV_ENABLE_RTM turns it off. -/
theorem forceAbortModeRule : Obligations.ForceAbortModeRule := by
  refine ⟨fun lp => Bool.and_eq_true_iff, fun s rel h => exists_xbegin_abort rel h,
    fun s hforce hrtm hq => ⟨_, (step_of_pending_nil hq).trans (runCur_of_due hrtm hforce), rfl⟩,
    fun lp hcfg hedx => ?_, fun i s t hcfg hedx h => ?_, fun lp b => c70Ebx_congr rfl rfl ?_⟩
  · obtain ⟨h11, h13, hsdv⟩ := (c70Edx_bit11_iff hcfg).mp hedx
    exact forceAbortRtm_of_edx11 h11 h13 hsdv
  · obtain ⟨h11, h13, -⟩ := (c70Edx_bit11_iff hcfg).mp hedx
    have hsame : t.cur.cfg = s.cur.cfg := (completion_of_exec h).sameContext.cfg
    rw [← hsame] at h11 h13
    cases hsdv : t.cur.tsxForceAbort.getLsbD 2 with
    | true => exact .inr rfl
    | false => exact .inl (forceAbortRtm_of_edx11 h11 h13 hsdv)
  · exact getLsbD_setBit_other _ _ _ _ (by omega)

/-! ### RDRAND, RDSEED, MONITOR, UMONITOR, UMWAIT, RET -/

/-- A free value goes to the one register of the four that the field names, if it names one. -/
theorem putReg_eq (r : RegField) (v : Word) (lp : LogicalProcessor) : putReg r v lp = { lp with
    eax := if r = .eax then v else lp.eax
    ebx := if r = .ebx then v else lp.ebx
    ecx := if r = .ecx then v else lp.ecx
    edx := if r = .edx then v else lp.edx } := by
  cases r <;> rfl

theorem randomTo_eq_next (seed : Bool) (r : RegField) (s : State) : randomTo seed r s = .next { s with
    draws := s.draws + 1
    cur := { s.cur with
      eax := if r = .eax then Config.freeRandom s.draws else s.cur.eax
      ebx := if r = .ebx then Config.freeRandom s.draws else s.cur.ebx
      ecx := if r = .ecx then Config.freeRandom s.draws else s.cur.ecx
      edx := if r = .edx then Config.freeRandom s.draws else s.cur.edx
      effects := s.cur.effects ++ [.random seed (srbdsNote s.cur)]
      ip := s.cur.ip + 3 } } := by
  simp only [randomTo, complete, State.onCur, putReg_eq]
  rfl

/-- Settles O42: both instructions draw one value, put it in the register and note the mitigation. -/
theorem randomInstructionsComplete : Obligations.RandomInstructionsComplete :=
  fun s r => ⟨Config.freeRandom s.draws, randomTo_eq_next false r s, randomTo_eq_next true r s⟩

theorem exec_monitor (s : State) : exec .monitor s = .next { s with
    draws := (monitorsFlushed s).draws
    others := (monitorsFlushed s).others
    cur := { s.cur with
      effects := s.cur.effects ++ if monUmonMitg s.cur then [.monitorFlush] else []
      ip := s.cur.ip + 3 } } := by
  change complete (monitorsFlushed s) (LogicalProcessor.advance 3) = _
  rw [complete, State.onCur, monitorsFlushed_cur, monitorsFlushed_code, monitorsFlushed_pending]
  rfl

theorem exec_umonitor (r : RegField) (s : State) : exec (.umonitor r) s = .next { s with
    draws := (monitorsFlushed s).draws
    others := (monitorsFlushed s).others
    cur := { s.cur with
      effects := (s.cur.effects ++ if monUmonMitg s.cur then [.monitorFlush] else []) ++
        [.umonitor (!ignUmonitor s.cur)]
      ip := s.cur.ip + 4 } } := by
  change complete (monitorsFlushed s) (fun lp => (lp.note (.umonitor (!ignUmonitor lp))).advance 4) = _
  rw [complete, State.onCur, monitorsFlushed_cur, monitorsFlushed_code, monitorsFlushed_pending]
  rfl

theorem monitorsFlushed_of_off {s : State} (h : monUmonMitg s.cur = false) :
    monitorsFlushed s = s := by
  rw [monitorsFlushed, h, if_neg Bool.false_ne_true]

/-- Settles O43: the flush is the same for both, and reaches only who is nearby. -/
theorem monitorInstructionsComplete : Obligations.MonitorInstructionsComplete := by
  intro s r
  dsimp only
  refine ⟨⟨(monitorsFlushed s).others, (monitorsFlushed s).draws, fun hoff => ?_, ?_, exec_monitor s,
    exec_umonitor r s⟩, Config.freeWaitEntered s.draws, rfl⟩
  · rw [monitorsFlushed_of_off hoff]
    exact ⟨rfl, rfl⟩
  · refine (monitorsFlushed_others s).imp fun o o' ho => ho.imp_right fun ⟨hreach, ho'⟩ => ?_
    obtain ⟨-, -, hpresent, hid, hnear⟩ := monitorFlushMayReach_iff.mp hreach
    exact ⟨hpresent, hid, hnear, ho'⟩

/-- Settles O44: the target is drawn by the count alone. -/
theorem retCompletes : Obligations.RetCompletes :=
  fun s _ => ⟨Config.freeReturnTarget s.draws, fun _ _ _ _ _ _ _ _ => ⟨rfl, rfl⟩⟩

end Sys2Proof.Machine
end

section
/-! Reset and microcode load, field by field (R420, R423, R426, R427), and the state after reset. -/

namespace Sys2Proof.Machine

/-! ### Reset -/

/-- What a change of every logical processor does to each of them. -/
theorem State.forall₂_threads_onAll {R : LogicalProcessor → LogicalProcessor → Prop} (s : State)
    {f : LogicalProcessor → LogicalProcessor} (h : ∀ lp, R lp (f lp)) :
    List.Forall₂ R s.threads (s.onAll f).threads := by
  rw [State.onAll_threads, List.forall₂_map_right_iff]
  exact List.forall₂_same.mpr fun lp _ => h lp

theorem getLsbD_tsxCtrlReset (c : Cfg) (n : Nat) :
    (tsxCtrlReset c).getLsbD n = c.resetTsxCtrl.getLsbD n := by
  rw [tsxCtrlReset, BitVec.getLsbD_setWidth]
  by_cases hn : n < 64
  · rw [decide_eq_true hn, Bool.true_and]
  · rw [decide_eq_false hn, Bool.false_and, BitVec.getLsbD_of_ge _ n (by omega)]

theorem getLsbD_tfaReset (c : Cfg) (n : Nat) :
    (tfaReset c).getLsbD n = (decide (n = 0) && c.resetTfaBit0) := by
  rw [tfaReset, getLsbD_setBit_of_lt _ _ _ (by omega)]
  by_cases hn : n = 0
  · rw [if_pos hn, decide_eq_true hn, Bool.true_and]
  · rw [if_neg hn, decide_eq_false hn, Bool.false_and]
    exact BitVec.getLsbD_zero

/-- Settles O45: the event is `resetTo` on every logical processor, which assigns each field; the three
control MSRs are compared bit by bit. -/
theorem resetEventSetsEveryField : Obligations.ResetEventSetsEveryField := by
  intro s a h
  refine ⟨_, if_pos h, topologyOk_of_accepts h fun _ => rfl, rfl, rfl, rfl,
    s.forall₂_threads_onAll fun lp => ?_⟩
  refine ⟨rfl, rfl, rfl, rfl, rfl, rfl, rfl, rfl, rfl, rfl, rfl, rfl, rfl, rfl, rfl, rfl, rfl, rfl, rfl,
    rfl, fun n => ?_, getLsbD_tsxCtrlReset _, getLsbD_tfaReset _, rfl, rfl, rfl⟩
  refine (getLsbD_mcuReset _ n).trans ?_
  match n with
  | 1 => exact (Bool.and_comm _ _).trans (Bool.and_assoc _ _ _).symm
  | 2 | 3 | 5 => exact Bool.and_comm _ _
  | 6 => exact Bool.true_and _
  | 0 | 4 | n + 7 => exact Bool.false_and _

/-- Settles O47: both logical processors already hold their reset values with `Cfg.a`. -/
theorem resetStateIsResetOfCfgA : Obligations.ResetStateIsResetOfCfgA := by
  refine ⟨?_, by decide, fun lp hlp => ?_⟩
  · have haccepts : State.reset.accepts ⟨Cfg.a, []⟩ = true := by decide
    change applyReset _ _ = _
    rw [applyReset, if_pos haccepts]
    rfl
  · obtain rfl | rfl := mem_reset_threads (List.mem_of_mem_filter hlp)
    · exact ⟨rfl, rfl, rfl, by decide, rfl, rfl, by decide, rfl, rfl, rfl, rfl⟩
    · exact ⟨rfl, rfl, rfl, by decide, rfl, rfl, by decide, rfl, rfl, rfl, rfl⟩

/-! ### Microcode load -/

theorem tfaReset_eq (c : Cfg) : tfaReset c = if c.resetTfaBit0 then 1 else 0 := by
  unfold tfaReset
  cases c.resetTfaBit0 <;> decide

/-- `getLsbD_mcuLoaded` with the enumeration asked first. -/
theorem getLsbD_mcuLoaded_eq (old c : Cfg) (held : Bool) (v : Quad) (n : Nat) :
    (mcuLoaded old c held v).getLsbD n =
      if mcuBitEnumerated c n = false then false
      else if n = 4 then false
      else if n = 5 then v.getLsbD 5 || held || c.gdsLockAtMcuLoad
      else if mcuBitEnumerated old n then v.getLsbD n
      else mcuResetBit c n := by
  have h5 : mcuBitEnumerated c 5 = archCapBit c 25 := rfl
  rw [getLsbD_mcuLoaded]
  grind

/-- Settles O48: the event is `loadTo` after the abort that is due; the two registers with fields of their
own enumeration are compared bit by bit. -/
theorem microcodeLoadKeepsEnumeratedFields : Obligations.MicrocodeLoadKeepsEnumeratedFields := by
  intro s a h
  refine ⟨_, if_pos h, topologyOk_of_accepts h fun lp => ?_, rfl, rfl, rfl,
    s.forall₂_threads_onAll fun before => ?_⟩
  · simp only [topologyFields, LogicalProcessor.loadTo, LogicalProcessor.takeDueAbort_core,
      LogicalProcessor.takeDueAbort_id]
  · rw [← before.takeDueAbort_id]
    generalize before.takeDueAbort = lp
    refine ⟨?_, fun n => ?_, fun n => ?_⟩
    · simp only [LogicalProcessor.loadTo, loadField, tfaReset_eq, tsxCtrlReset, xapicLoaded]
    · simp only [LogicalProcessor.loadTo, BitVec.getLsbD_and, getLsbD_specCtrlImplemented, Bool.and_assoc]
    · refine (getLsbD_mcuLoaded_eq _ _ _ _ n).trans ?_
      match n with
      | 0 | 1 | 2 | 3 | 4 | 5 | 6 | n + 7 => rfl

end Sys2Proof.Machine
end

section
/-! Enclaves, transactions and the events of one logical processor (R375, R376, R424; entries 20, 21, 24,
25, 37), and the events that are refused (R22, R426; entries 10, 23, 27). -/

namespace Sys2Proof.Machine

/-! ### Enclave entry and exit -/

theorem overwriteAt_eq (crossed : Bool) (lp : LogicalProcessor) : overwriteAt crossed lp = { lp with
    events := lp.events ++ (if crossed && archCapBit lp.cfg 7 && !archCapBit lp.cfg 8 then
      [.enclaveBufferOverwrite] else []) } := by
  rw [overwriteAt, taaSgxBehaviour, ← Bool.and_assoc]
  split
  · rfl
  · rw [List.append_nil]

theorem enter_eq (lp : LogicalProcessor) : lp.enter = { lp with
    inEnclave := true
    events := lp.events ++ (if !lp.inEnclave && archCapBit lp.cfg 7 && !archCapBit lp.cfg 8 then
      [.enclaveBufferOverwrite] else []) } := by
  rw [LogicalProcessor.enter, overwriteAt_eq]

theorem leave_eq (lp : LogicalProcessor) : lp.leave = { lp with
    inEnclave := false
    events := lp.events ++ (if lp.inEnclave && archCapBit lp.cfg 7 && !archCapBit lp.cfg 8 then
      [.enclaveBufferOverwrite] else []) } := by
  rw [LogicalProcessor.leave, overwriteAt_eq]

theorem LogicalProcessor.enter_id (lp : LogicalProcessor) : lp.enter.id = lp.id :=
  (localChange_enter lp).id

theorem abortForSibling_of_id_eq {draws n core : Nat} {lp : LogicalProcessor} (h : lp.id = n) :
    abortForSibling draws n core lp = lp := by
  rw [abortForSibling, h, bne_self_eq_false, Bool.and_false, Bool.false_and, Bool.false_and,
    Bool.false_and, if_neg Bool.false_ne_true]

/-- Who aborts on the entry of a sibling (R375). -/
theorem abortForSibling_eq (draws : Nat) {n core : Nat} {lp : LogicalProcessor} (h : lp.id ≠ n) :
    abortForSibling draws n core lp =
      if lp.present = true ∧ lp.core = core ∧ lp.inRtm = true ∧
          taaSgxBehaviour lp.cfg = true ∧ lp.cfg.hyperthreading = true then
        lp.rtmAbort .siblingEnclave (Config.freeAbortEax draws lp.id) lp.rtmFallback
      else lp := by
  rw [abortForSibling]
  refine if_congr ?_ rfl rfl
  simp only [Bool.and_eq_true, beq_iff_eq, bne_iff_ne, and_assoc, h, ne_eq, not_false_iff, true_and]

theorem State.exists_findLp {s : State} {n : Nat} (h : s.hasLp n = true) :
    ∃ e, s.findLp n = some e :=
  Option.isSome_iff_exists.mp (List.find?_isSome.mpr (List.any_eq_true.mp h))

theorem applyEnclaveEnter_of_findLp {s : State} {n : Nat} {e : LogicalProcessor}
    (h : s.findLp n = some e) : applyEnclaveEnter n s = .next (enclaveEntered n e.core s) := by
  rw [applyEnclaveEnter, h]

/-- What the entry does to each logical processor, before and after. -/
theorem forall₂_enclaveEntered (n core : Nat) (s : State) :
    List.Forall₂ (fun lp lp' =>
      lp' = abortForSibling s.draws n core (onNumber n LogicalProcessor.enter lp))
      s.threads (enclaveEntered n core s).threads :=
  s.drawn.forall₂_threads_onAll fun _ => rfl

/-- Settles O50: the one that enters or leaves gets `enter` or `leave`, and is not its own sibling. -/
theorem enclaveBoundaryOverwritesBuffers : Obligations.EnclaveBoundaryOverwritesBuffers := by
  intro s n hlp
  obtain ⟨e, he⟩ := State.exists_findLp hlp
  refine ⟨_, _, applyEnclaveEnter_of_findLp he, applyToLp_of_hasLp _ hlp, rfl, rfl, rfl, rfl, rfl,
    (forall₂_enclaveEntered n e.core s).imp fun lp lp' h hid => ?_,
    (s.forall₂_threads_onLp n _).imp fun lp lp' h => ⟨fun hid => ?_, fun hid => ?_⟩⟩
  · rw [h, onNumber_of_id_eq hid, abortForSibling_of_id_eq (lp.enter_id.trans hid), enter_eq]
  · rw [h, onNumber_of_id_ne hid]
  · rw [h, onNumber_of_id_eq hid, leave_eq]

/-! ### Beginning a transaction -/

theorem applyRtmBegin_of_findLp {s : State} {n : Nat} (k : Nat) {lp : LogicalProcessor}
    (h : s.findLp n = some lp) : applyRtmBegin n k s = .next (s.onLp n fun t =>
      if siblingInEnclaveBlocksTsx s lp then t.takeDueAbort else t.takeDueAbort.begin k) := by
  simp only [applyRtmBegin, h]
  split_ifs <;> rfl

/-- Settles O51: the entry aborts exactly the siblings of `abortForSibling_eq`; an attempt to begin takes
a due abort and then begins unless a sibling excludes it. -/
theorem enclaveEntryAbortsSiblings : Obligations.EnclaveEntryAbortsSiblings := by
  refine ⟨fun s n e he => ⟨_, applyEnclaveEnter_of_findLp he, rfl, rfl,
      (forall₂_enclaveEntered n e.core s).imp fun lp lp' h hid => ?_⟩,
    fun s n k lp hlp => ⟨_, applyRtmBegin_of_findLp k hlp, rfl, rfl, rfl,
      (s.forall₂_threads_onLp n _).imp fun before lp' h => ?_⟩⟩
  · rw [onNumber_of_id_ne hid, abortForSibling_eq s.draws hid] at h
    split_ifs at h ⊢
    · exact ⟨_, h⟩
    · exact h
  · exact h

/-! ### The other events of one logical processor -/

/-- Settles O53: each event changes the one numbered `n` by the operation the model names. -/
theorem contextEventsTouchOneProcessor : Obligations.ContextEventsTouchOneProcessor := by
  intro s n hlp
  refine ⟨applyEvent_init_or_sipi hlp (.inl rfl), applyEvent_init_or_sipi hlp (.inr rfl),
    ⟨_, applyToLp_of_hasLp _ hlp, rfl, rfl, rfl, s.forall₂_threads_onLp n _⟩,
    ⟨_, applyToLp_of_hasLp _ hlp, rfl, rfl, rfl,
      (s.forall₂_threads_onLp n _).imp fun lp lp' h => ?_⟩,
    fun a b c d ip => ⟨_, applyToLp_of_hasLp _ hlp, rfl, rfl, rfl, s.forall₂_threads_onLp n _⟩⟩
  subst h
  refine ⟨fun hkeep => ?_, fun hid hrtm => ?_⟩
  · by_cases hid : lp.id = n
    · have hrtm : lp.cfg.mcuRtmBits = false := hkeep.resolve_left (not_not_intro hid)
      rw [onNumber_of_id_eq hid, LogicalProcessor.lockRtm, hrtm, if_neg Bool.false_ne_true]
    · exact onNumber_of_id_ne hid
  · rw [onNumber_of_id_eq hid]
    refine ⟨rfl, ?_, ?_, fun k h1 h2 => ?_⟩
    · rw [getLsbD_lockRtm, if_pos ⟨hrtm, rfl⟩]
    · rw [getLsbD_lockRtm, if_neg (by simp), if_pos ⟨hrtm, rfl⟩]
    · rw [getLsbD_lockRtm, if_neg fun h => h2 h.2, if_neg fun h => h1 h.2]

/-! ### Refused events -/

theorem State.accepts_eq_false_iff {s : State} {a : CfgAssignment} : s.accepts a = false ↔
    (∃ lp ∈ s.threads, cfgWf (a.forLp lp.id) = false) ∨ (s.assigned a).topologyOk = false := by
  rw [State.accepts, Bool.and_eq_false_iff, List.all_eq_false]
  simp only [Bool.not_eq_true]

theorem State.findLp_eq_none {s : State} {n : Nat} (h : s.hasLp n = false) : s.findLp n = none := by
  rw [State.findLp, List.find?_eq_none]
  exact List.any_eq_false.mp h

theorem applyToLp_of_not_hasLp {n : Nat} {s : State} (f : LogicalProcessor → LogicalProcessor)
    (h : s.hasLp n = false) : applyToLp n f s = .refused (.noSuchLogicalProcessor n) := by
  rw [applyToLp, h]
  rfl

theorem applySchedule_of_not_hasLp {n : Nat} {s : State} (h : s.hasLp n = false) :
    applySchedule n s = .refused (.noSuchLogicalProcessor n) := by
  have hnot (lp : LogicalProcessor) (hlp : lp ∈ s.threads) : ¬(lp.present = true ∧ lp.id = n) :=
    fun hhas => by rw [State.hasLp_iff.mpr ⟨lp, hlp, hhas⟩] at h; cases h
  have hfind : (s.others.find? fun lp => lp.present && lp.id == n) = none := by
    rw [List.find?_eq_none]
    intro lp hlp
    simpa only [Bool.and_eq_true, beq_iff_eq] using hnot lp (List.mem_cons_of_mem _ hlp)
  rw [applySchedule, if_neg (hnot s.cur List.mem_cons_self), hfind]
  rfl

theorem applyEvent_of_not_hasLp {s : State} {n k ip : Nat} {a b c d : Word} {e : EnvEvent}
    (h : s.hasLp n = false)
    (he : e ∈ [EnvEvent.schedule n, .init n, .sipi n, .mcheckComplete n, .enclaveEnter n,
      .enclaveExit n, .rtmBegin n k, .rtmEnd n, .rtmLock n, .software n a b c d ip]) :
    applyEvent e s = .refused (.noSuchLogicalProcessor n) := by
  have hfind := State.findLp_eq_none h
  simp only [List.mem_cons, List.not_mem_nil, or_false] at he
  obtain rfl | rfl | rfl | rfl | rfl | rfl | rfl | rfl | rfl | rfl := he
  case inl => exact applySchedule_of_not_hasLp h
  case inr.inr.inr.inr.inl =>
    change applyEnclaveEnter n s = _
    rw [applyEnclaveEnter, hfind]
    rfl
  case inr.inr.inr.inr.inr.inr.inl =>
    change applyRtmBegin n k s = _
    rw [applyRtmBegin, hfind]
    rfl
  all_goals exact applyToLp_of_not_hasLp _ h

/-! ### What well-formedness and the topology say -/

/-- `t` has the lowest number of its core in `l`. -/
def lowestOnCore (l : List LogicalProcessor) (t : LogicalProcessor) : Bool :=
  l.all fun u => u.core != t.core || decide (t.id ≤ u.id)

theorem lowestOnCore_iff {l : List LogicalProcessor} {t : LogicalProcessor} :
    lowestOnCore l t = true ↔ ∀ u ∈ l, u.core = t.core → t.id ≤ u.id := by
  simp only [lowestOnCore, List.all_eq_true, Bool.or_eq_true, bne_iff_ne, decide_eq_true_iff,
    ne_eq, ← imp_iff_not_or]

theorem coreCount_eq_length (l : List LogicalProcessor) :
    coreCount l = (l.filter (lowestOnCore l)).length :=
  List.countP_eq_length_filter

/-- Going down to a lower number on the same core ends at the lowest. -/
theorem exists_lowestOnCore {l : List LogicalProcessor} {t : LogicalProcessor} (ht : t ∈ l) :
    ∃ u ∈ l, lowestOnCore l u = true ∧ u.core = t.core := by
  induction hid : t.id using Nat.strong_induction_on generalizing t with
  | _ k ih =>
    by_cases hlowest : lowestOnCore l t = true
    · exact ⟨t, ht, hlowest, rfl⟩
    · rw [lowestOnCore_iff] at hlowest
      push Not at hlowest
      obtain ⟨u, hu, hcore, hlt⟩ := hlowest
      obtain ⟨v, hv, hvlowest, hvcore⟩ := ih u.id (hid ▸ hlt) hu rfl
      exact ⟨v, hv, hvlowest, hvcore.trans hcore⟩

theorem nodup_cores_of_lowest {l : List LogicalProcessor} (hnodup : (l.map (·.id)).Nodup) :
    ((l.filter (lowestOnCore l)).map fun t => t.core).Nodup := by
  refine (List.nodup_map_iff_inj_on (hnodup.of_map.filter _)).mpr fun a ha b hb hcore => ?_
  obtain ⟨ha, halowest⟩ := List.mem_filter.mp ha
  obtain ⟨hb, hblowest⟩ := List.mem_filter.mp hb
  have hab := lowestOnCore_iff.mp halowest b hb hcore.symm
  have hba := lowestOnCore_iff.mp hblowest a ha hcore
  exact List.inj_on_of_nodup_map hnodup ha hb (Nat.le_antisymm hab hba)

/-- Each core is counted once, at its lowest number. -/
theorem coreCount_eq_card {l : List LogicalProcessor} (hnodup : (l.map (·.id)).Nodup) :
    coreCount l = (l.map fun t => t.core).toFinset.card := by
  have hcores : (l.map fun t => t.core).toFinset =
      ((l.filter (lowestOnCore l)).map fun t => t.core).toFinset := by
    ext c
    simp only [List.mem_toFinset, List.mem_map, List.mem_filter]
    constructor
    · rintro ⟨t, ht, rfl⟩
      obtain ⟨u, hu, hlowest, hcore⟩ := exists_lowestOnCore ht
      exact ⟨u, ⟨hu, hlowest⟩, hcore⟩
    · rintro ⟨t, ⟨ht, -⟩, hcore⟩
      exact ⟨t, ht, hcore⟩
  rw [hcores, List.toFinset_card_of_nodup (nodup_cores_of_lowest hnodup), List.length_map,
    coreCount_eq_length]

theorem State.nodup_lps_ids {s : State} (h : s.numbersOk = true) : (s.lps.map (·.id)).Nodup :=
  (State.nodup_ids h).sublist (List.filter_sublist.map _)

theorem cfgWf_facts {c : Cfg} (h : cfgWf c = true) :
    (c.c70Edx.getLsbD 11 = true → c.c70Edx.getLsbD 13 = true) ∧
    ¬(c.archCap.getLsbD 27 = true ∧ c.archCap.getLsbD 28 = true) ∧
    (1 < c.threadsPerCore ↔ c.hyperthreading = true) := by
  simp only [cfgWf, c70EdxBit, Bool.and_eq_true, Bool.or_eq_true, Bool.not_eq_true', beq_iff_eq] at h
  obtain ⟨⟨⟨⟨⟨⟨hedx, hrfds⟩, -⟩, -⟩, -⟩, -⟩, hthreads⟩ := h
  refine ⟨fun h11 => ?_, fun hboth => ?_, ?_⟩
  · exact hedx.resolve_left (Bool.not_eq_false _ ▸ h11)
  · rw [hboth.1, hboth.2] at hrfds
    cases hrfds
  · rw [← hthreads, decide_eq_true_iff]

/-- Settles O54: the package is not changed where the configurations are not accepted or the number names
no logical processor; `coreCount` counts the distinct cores. -/
theorem eventsOutsideTheModelAreRefused : Obligations.EventsOutsideTheModelAreRefused := by
  refine ⟨fun s a h => ?_, fun s n k ip a b c d e h he => applyEvent_of_not_hasLp h he,
    fun c h => cfgWf_facts h, fun s hnumbers htopology => ?_⟩
  · have haccepts := State.accepts_eq_false_iff.mpr h
    have hnot : ¬s.accepts a = true := by rw [haccepts]; exact Bool.false_ne_true
    exact ⟨if_neg hnot, if_neg hnot⟩
  · obtain ⟨hcur, hall⟩ := State.topologyOk_iff.mp htopology
    refine ⟨List.mem_filter.mpr ⟨List.mem_cons_self, hcur⟩, fun lp hlp => ?_⟩
    obtain ⟨hcores, hthreads⟩ := hall lp hlp
    exact ⟨hthreads, hcores.trans (coreCount_eq_card (State.nodup_lps_ids hnumbers))⟩

end Sys2Proof.Machine
end

section
/-! CPUID, RDMSR and WRMSR on two logical processors that differ in their modes and histories alone
(R386). -/

namespace Sys2Proof.Machine

/-! ### What the two have in common -/

section
variable {lp lp' : LogicalProcessor} (h : apartInModes lp lp')
include h

theorem apartInModes.cfg_eq : lp'.cfg = lp.cfg := by rw [h.1]
theorem apartInModes.cpl_eq : lp'.cpl = lp.cpl := by rw [h.1]
theorem apartInModes.ecx_eq : lp'.ecx = lp.ecx := by rw [h.1]

theorem apartInModes.edxEax_eq : edxEax lp' = edxEax lp := by
  rw [h.1]
  rfl

theorem apartInModes.rowSelects_eq (i : Instr) : rowSelects i lp' = rowSelects i lp := by
  rw [h.1]
  cases i <;> rfl

theorem apartInModes.cpuidOut_eq : cpuidOut lp' = cpuidOut lp := by
  rw [h.1]
  rfl

theorem apartInModes.rdmsrBlocked_iff (m : Msr) : rdmsrBlocked m lp' ↔ rdmsrBlocked m lp := by
  rw [rdmsrBlocked, h.cpl_eq, h.cfg_eq, rdmsrBlocked]

theorem apartInModes.wrmsrBlocked_iff (m : Msr) : wrmsrBlocked m lp' ↔ wrmsrBlocked m lp := by
  rw [wrmsrBlocked, h.cpl_eq, h.cfg_eq, h.edxEax_eq, wrmsrBlocked]

theorem apartInModes.msrOutside_eq (m : Msr) (v : Quad) : msrOutside m v lp' = msrOutside m v lp := by
  rw [h.1]
  cases m <;> rfl

theorem apartInModes.msrLegal_eq (m : Msr) (v : Quad) : msrLegal m v lp' = msrLegal m v lp := by
  rw [h.1]
  cases m <;> rfl

theorem apartInModes.msrClamp_eq (m : Msr) (v : Quad) : msrClamp m v lp' = msrClamp m v lp := by
  rw [h.1]
  cases m <;> rfl

/-- Only the three registers they differ in read apart. -/
theorem apartInModes.msrRead_eq {m : Msr} (hspec : m ≠ .specCtrl) (hmcu : m ≠ .mcuOptCtrl)
    (huarch : m ≠ .uarchMiscCtl) : msrRead m lp' = msrRead m lp := by
  rw [h.1]
  cases m with
  | specCtrl => exact absurd rfl hspec
  | mcuOptCtrl => exact absurd rfl hmcu
  | uarchMiscCtl => exact absurd rfl huarch
  | _ => rfl

/-! ### They stay apart in the modes alone -/

theorem apartInModes.putCpuid (o : CpuidOut) : apartInModes
    { lp with eax := o.eax, ebx := o.ebx, ecx := o.ecx, edx := o.edx, ip := lp.ip + 2 }
    { lp' with eax := o.eax, ebx := o.ebx, ecx := o.ecx, edx := o.edx, ip := lp'.ip + 2 } :=
  ⟨by rw [h.1], h.2⟩

theorem apartInModes.putEdxEax_advance (v : Quad) (n : Nat) :
    apartInModes ((putEdxEax v lp).advance n) ((putEdxEax v lp').advance n) :=
  ⟨by rw [h.1]; rfl, h.2⟩

theorem apartInModes.advance (n : Nat) : apartInModes (lp.advance n) (lp'.advance n) :=
  ⟨by rw [h.1]; rfl, h.2⟩

theorem apartInModes.emit (e : Event) : apartInModes (lp.emit e) (lp'.emit e) :=
  ⟨by rw [h.1]; rfl, h.2⟩

/-- The bits of IA32_MCU_OPT_CTRL the two share after a write depend on bits they share before it. -/
theorem apartInModes.mcuWritten (v : Quad) {n : Nat} (hn : n ∉ [0, 3, 4, 6, 7]) :
    (Machine.mcuWritten v lp').getLsbD n = (Machine.mcuWritten v lp).getLsbD n := by
  have h1 := h.2 1 (by decide)
  have h2 := h.2 2 (by decide)
  have hlock : gdsLockWritten v lp' = gdsLockWritten v lp := by
    rw [gdsLockWritten, gdsLockWritten, h.2 5 (by decide), h.cfg_eq]
  rw [getLsbD_mcuWritten, getLsbD_mcuWritten, h.cfg_eq, h1, h2, hlock, h.2 n hn]

theorem apartInModes.msrWrite (m : Msr) (v : Quad) :
    apartInModes (Machine.msrWrite m v lp) (Machine.msrWrite m v lp') := by
  cases m with
  | mcuOptCtrl => exact ⟨by rw [h.1]; rfl, fun n hn => h.mcuWritten v hn⟩
  | predCmd | flushCmd =>
    simp only [Machine.msrWrite, h.cfg_eq]
    split
    · exact h.emit _
    · exact h
  | _ => exact ⟨by rw [h.1]; rfl, h.2⟩

end

/-! ### The outcomes of the three instructions -/

/-- The same outcome, of two states whose executing logical processors differ in their modes. -/
inductive SameButModes (s s' : State) : Result → Result → Prop
  | next {t t' : State} (h : apartInModes t.cur t'.cur) : SameButModes s s' (.next t) (.next t')
  | fault : SameButModes s s' (.fault (.gp 0 s)) (.fault (.gp 0 s'))
  | refused (r : Refusal) : SameButModes s s' (.refused r) (.refused r)

section
variable {s s' : State} (h : apartInModes s.cur s'.cur)
include h

theorem sameButModes_cpuid : SameButModes s s' (exec .cpuid s) (exec .cpuid s') := by
  rw [exec_cpuid, exec_cpuid, cpuidComplete_eq_next rfl, cpuidComplete_eq_next h.cpuidOut_eq]
  exact .next (h.putCpuid _)

theorem sameButModes_rdmsrOf {m : Msr} (hspec : m ≠ .specCtrl) (hmcu : m ≠ .mcuOptCtrl)
    (huarch : m ≠ .uarchMiscCtl) : SameButModes s s' (rdmsrOf m s) (rdmsrOf m s') := by
  by_cases hblocked : rdmsrBlocked m s.cur
  · rw [rdmsrOf_of_blocked hblocked, rdmsrOf_of_blocked ((h.rdmsrBlocked_iff m).mpr hblocked)]
    exact .fault
  · rw [rdmsrOf_of_not_blocked hblocked,
      rdmsrOf_of_not_blocked (mt (h.rdmsrBlocked_iff m).mp hblocked)]
    refine .next ?_
    change apartInModes _ ((putEdxEax (msrRead m s'.cur) s'.cur).advance 2)
    rw [h.msrRead_eq hspec hmcu huarch]
    exact h.putEdxEax_advance _ 2

theorem sameButModes_wrmsrOf (m : Msr) : SameButModes s s' (wrmsrOf m s) (wrmsrOf m s') := by
  by_cases hblocked : wrmsrBlocked m s.cur
  · rw [wrmsrOf_of_blocked hblocked, wrmsrOf_of_blocked ((h.wrmsrBlocked_iff m).mpr hblocked)]
    exact .fault
  · rw [wrmsrOf_of_not_blocked hblocked,
      wrmsrOf_of_not_blocked (mt (h.wrmsrBlocked_iff m).mp hblocked),
      h.edxEax_eq, h.msrOutside_eq, h.msrLegal_eq, h.cfg_eq]
    split_ifs
    · exact .refused _
    · exact .next ((h.msrWrite m _).advance 2)
    · refine .next ?_
      change apartInModes _ ((msrWrite m (msrClamp m (edxEax s.cur) s'.cur) s'.cur).advance 2)
      rw [h.msrClamp_eq]
      exact (h.msrWrite m _).advance 2
    · exact .fault

theorem sameButModes_accessOutside : SameButModes s s' (accessOutside s) (accessOutside s') := by
  rw [accessOutside, accessOutside, h.cpl_eq, h.ecx_eq]
  split_ifs
  · exact .fault
  · exact .refused _

theorem sameButModes_rdmsr
    (hread : ¬(s.cur.ecx = 0x48 ∨ s.cur.ecx = 0x123 ∨ s.cur.ecx = 0x1B01)) :
    SameButModes s s' (exec .rdmsr s) (exec .rdmsr s') := by
  obtain ⟨m, hecx⟩ | hnone := msrIndex_or_outside s.cur.ecx
  · rw [exec_rdmsr_of_index hecx, exec_rdmsr_of_index (h.ecx_eq.trans hecx)]
    rw [hecx] at hread
    refine sameButModes_rdmsrOf h ?_ ?_ ?_ <;> rintro rfl
    · exact hread (.inl rfl)
    · exact hread (.inr (.inl rfl))
    · exact hread (.inr (.inr rfl))
  · rw [exec_rdmsr_of_outside hnone, exec_rdmsr_of_outside (h.ecx_eq ▸ hnone)]
    exact sameButModes_accessOutside h

theorem sameButModes_wrmsr : SameButModes s s' (exec .wrmsr s) (exec .wrmsr s') := by
  obtain ⟨m, hecx⟩ | hnone := msrIndex_or_outside s.cur.ecx
  · rw [exec_wrmsr_of_index hecx, exec_wrmsr_of_index (h.ecx_eq.trans hecx)]
    exact sameButModes_wrmsrOf h m
  · rw [exec_wrmsr_of_outside hnone, exec_wrmsr_of_outside (h.ecx_eq ▸ hnone)]
    exact sameButModes_accessOutside h

/-- A row that is selected is its instruction, and the selector sees no mode. -/
theorem sameButModes_exec {i : Instr} (hi : i.base = .cpuid ∨ i.base = .rdmsr ∨ i.base = .wrmsr)
    (hread : ¬(i.base = .rdmsr ∧ (s.cur.ecx = 0x48 ∨ s.cur.ecx = 0x123 ∨ s.cur.ecx = 0x1B01))) :
    SameButModes s s' (exec i s) (exec i s') := by
  have hselects := h.rowSelects_eq i
  cases hrow : rowSelects i s.cur with
  | false =>
    rw [exec_of_not_rowSelects hrow, exec_of_not_rowSelects (hselects.trans hrow)]
    exact .refused _
  | true =>
    rw [exec_of_rowSelects hrow, exec_of_rowSelects (hselects.trans hrow)]
    obtain hbase | hbase | hbase := hi <;> rw [hbase]
    · exact sameButModes_cpuid h
    · exact sameButModes_rdmsr h fun hecx => hread ⟨hbase, hecx⟩
    · exact sameButModes_wrmsr h

end

/-- Settles O60: the two outcomes are of the same kind, by the checks and values of `apartInModes`. -/
theorem modesDoNotReachTheRegisters : Obligations.ModesDoNotReachTheRegisters := by
  intro i s s' hi h hread
  have hsame := sameButModes_exec h hi hread
  generalize exec i s = r at hsame ⊢
  generalize exec i s' = r' at hsame ⊢
  refine ⟨fun t ht => ?_, fun f hf => ?_, fun why hwhy => ?_⟩
  · subst ht
    cases hsame with
    | next hcur => exact ⟨_, rfl, hcur⟩
  · subst hf
    cases hsame with
    | fault => exact ⟨rfl, rfl⟩
  · subst hwhy
    cases hsame with
    | refused => rfl

end Sys2Proof.Machine
end
